-- ==== Sys2Proof/Word.lean ====
section
/-! DEFINITION. The word types of the block and their plainest arithmetic. -/

namespace Sys2Proof

/-- A register value or a serial symbol: `REG_W` = `SYMBOL_BITS` = 8 (00_scope.md R9). -/
abbrev Byte := BitVec 8

/-- An instruction word of the decoded CPU, and a configuration mask: `WORD_BITS` = 16 (00_scope.md R3, R8). -/
abbrev Word := BitVec 16

/-- A transaction `{tag[23:16], data[15:0]}` (30_encoding.md R66). -/
abbrev Txn := BitVec 24

/-- One bit as a one-bit vector, for the register layouts of 30_encoding.md section 4. -/
abbrev bit (b : Bool) : BitVec 1 := BitVec.ofBool b

end Sys2Proof
end

