-- ==== Sys2Proof/Config.lean ====
section
/-! DEFINITION. What an implementation or a platform fixes: the descriptor record and the ROM content `LAYERS`, and
the OPEN parameters of 00_scope.md R9. The constants without a body are free: nothing can evaluate them, so what is
proved of the machine after reset holds of every implementation. -/

namespace Sys2Proof

/-- The eight layout kinds, named by the spec and given no meaning (30_encoding.md R64). -/
inductive Format where
  | f0 | f1 | f2 | f3 | f4 | f5 | f6 | f7
  deriving DecidableEq, Repr

/-- The flow classes, metadata for the external execution logic (30_encoding.md R65). -/
inductive FlowClass where
  | none | jmp | call | ret | branch | interrupt | interruptEnable
  deriving DecidableEq, Repr

/-- An InstructionDescriptor: these fields and only these (30_encoding.md R62). The strings are opaque to the block. -/
structure Descriptor where
  encoding : Word
  mask : Word
  format : Format
  extraWordsX : Fin 4
  extraWordsY : Fin 4
  name : String
  displayFormat : String
  action : String
  flowClass : FlowClass
  isConditional : Bool
  hasDelaySlot : Bool
  deriving DecidableEq, Repr

/-- The ROM content `LAYERS` = (`BASE`, `ALT[1..NALT]`) (00_scope.md R9). -/
structure Layers where
  base : List Descriptor
  alt : List (List Descriptor)
  deriving DecidableEq, Repr

/-- `NALT`, the number of optional layers. -/
abbrev Layers.nalt (L : Layers) : Nat := L.alt.length

/-- The OPEN parameters of 00_scope.md R9 as plain data. A threshold table is indexed by `{FDPX, level select}`. -/
structure Params where
  layers : Layers
  cfg0 : Word
  rxqCap : Nat
  txqCap : Nat
  rxThr : Vector Nat 16
  txThr : Vector Nat 16
  tapHz : Vector Nat 4
  rxIrq : Nat
  txIrq : Nat
  fifoUnderrunSetsFlag : Bool
  deriving DecidableEq, Repr

namespace Config

/-- `SYMBOL_BITS`, the bits-per-symbol of 43_timing.md R159 (92_eei_decisions.md D3, D27). -/
def symbolBits : Nat := 8

/-- `ROM_SLOTS` (00_scope.md R8). -/
def romSlots : Nat := 65536

/-- The canonical descriptor list `BASE`, in no source (91_not_in_source.md N1). Log 5. -/
opaque base : List Descriptor

/-- Optional layers before the bound `NALT` ≤ 16 is imposed. Log 5. -/
opaque altRaw : List (List Descriptor)

/-- `CFG0` before the bits at and above `NALT` are removed. Log 5. -/
opaque cfg0Raw : Word

/-- `RXQ_CAP` − 1, so that `RXQ_CAP` is 1 to 7. Log 5. -/
opaque rxqCapRaw : Fin 7

/-- `TXQ_CAP` − 1, so that `TXQ_CAP` is 1 to 7. Log 5. -/
opaque txqCapRaw : Fin 7

/-- `rxThr` before the bound `RXQ_CAP` is imposed (10_state.md R40). Log 5. -/
opaque rxThrRaw : BitVec 2 → BitVec 2 → Nat

/-- `txThr` (10_state.md R41). Log 5. -/
opaque txThrRaw : BitVec 2 → BitVec 2 → Nat

/-- `TAP_HZ[0..3]` (43_timing.md R154). Log 5. -/
opaque tapHz : Vector Nat 4

/-- `RX_IRQ` (60_exceptions.md R173). Log 5. -/
opaque rxIrq : Nat

/-- `TX_IRQ` (60_exceptions.md R173). Log 5. -/
opaque txIrq : Nat

/-- `FIFO_UNDERRUN_SETS_FLAG` (42_datapath.md R150, 92_eei_decisions.md D22). Log 5. -/
opaque fifoUnderrunSetsFlag : Bool

/-- The content of `txSlot` at reset, any value (93_implementation_defined.md U5). DESIGN CHOICE, log 6. -/
opaque txSlotReset : Byte

/-- The content of `rxSlot` at reset, any value (93_implementation_defined.md U5). DESIGN CHOICE, log 6. -/
opaque rxSlotReset : Byte

/-- A function of the two 2-bit fields as a table indexed by their concatenation. -/
def thrTable (f : BitVec 2 → BitVec 2 → Nat) : Vector Nat 16 :=
  Vector.ofFn fun i : Fin 16 => f (BitVec.ofNat 2 (i.val / 4)) (BitVec.ofNat 2 (i.val % 4))

/-- The optional layers: `NALT` is 0 to 16 (00_scope.md R9). -/
def alt : List (List Descriptor) := altRaw.take 16

/-- `RXQ_CAP`, 1 to 7. -/
def rxqCap : Nat := rxqCapRaw.val + 1

/-- The implementation's parameters. Every value 00_scope.md R9 admits is one of these, and no other is. -/
def params : Params where
  layers := ⟨base, alt⟩
  cfg0 := cfg0Raw &&& BitVec.ofNat 16 (2 ^ alt.length - 1)
  rxqCap := rxqCap
  txqCap := txqCapRaw.val + 1
  rxThr := thrTable fun d l => min (rxThrRaw d l) rxqCap
  txThr := thrTable txThrRaw
  tapHz := tapHz
  rxIrq := rxIrq
  txIrq := txIrq
  fifoUnderrunSetsFlag := fifoUnderrunSetsFlag

/-- The default receive threshold table (10_state.md R40), for tests only. -/
def defaultRxThr : Vector Nat 16 := #v[4, 1, 2, 3, 4, 1, 2, 3, 4, 1, 2, 3, 2, 1, 2, 1]

/-- The default transmit threshold table (10_state.md R41), for tests only. -/
def defaultTxThr : Vector Nat 16 := #v[0, 1, 2, 3, 0, 1, 2, 3, 0, 1, 2, 3, 0, 1, 0, 1]

/-- The defaults 00_scope.md R9 offers for tests, over a given ROM content, taps and interrupt numbers. -/
def defaults (L : Layers) (taps : Vector Nat 4) (rx tx : Nat) : Params where
  layers := L
  cfg0 := 0
  rxqCap := 4
  txqCap := 4
  rxThr := defaultRxThr
  txThr := defaultTxThr
  tapHz := taps
  rxIrq := rx
  txIrq := tx
  fifoUnderrunSetsFlag := false

end Config

end Sys2Proof
end

