-- ==== Sys2Proof/Syntax.lean ====
section
/-! DEFINITION. The operations of the block, one constructor per row of spec/opcode_table.json; the requests by which
agents present them; the rejections. -/

namespace Sys2Proof

/-- The thirteen registers of the register bus, in select order (30_encoding.md R70). -/
inductive Reg where
  | en | buf | cr | mod0 | brcr | bradd | mod1 | mod2 | rfc | tfc | rst | tst | fcnf
  deriving DecidableEq, Repr

/-- An operation of the block (30_encoding.md R67). Operand widths are those of R66: an 8-bit value, a 16-bit
instruction word or a 16-bit configuration mask. -/
inductive Instr where
  | rdEn
  | wrEn (v : Byte)
  | rdBuf
  | wrBuf (v : Byte)
  | rdCr
  | wrCr (v : Byte)
  | rdMod0
  | wrMod0 (v : Byte)
  | rdBrcr
  | wrBrcr (v : Byte)
  | rdBradd
  | wrBradd (v : Byte)
  | rdMod1
  | wrMod1 (v : Byte)
  | rdMod2
  | wrMod2 (v : Byte)
  | rdRfc
  | wrRfc (v : Byte)
  | rdTfc
  | wrTfc (v : Byte)
  | rdRst
  | wrRst (v : Byte)
  | rdTst
  | wrTst (v : Byte)
  | rdFcnf
  | wrFcnf (v : Byte)
  | send (v : Byte)
  | receive (v : Byte)
  | tick
  | freq
  | decLookup (w : Word)
  | decBuild (cfg : Word)
  /-- A bare instruction word at the decoder port, in the one pattern the spec fixes: the catch-all, all 16 bits
  free (40_decoder.md R86). Log 10. -/
  | unknown (w : Word)
  deriving DecidableEq, Repr

/-- The ports, named by the top two bits of a tag (30_encoding.md R67). -/
inductive Port where
  | registerBus | dataClock | decoder
  deriving DecidableEq, Repr

/-- What an agent presents (00_scope.md R5): a transaction (30_encoding.md R66), a bare instruction word (log 10), or
a register-bus access by byte offset and size (20_memory.md R50). -/
inductive Request where
  | txn (w : Txn)
  | word (w : Word)
  | memRead (addr n : Nat)
  | memWrite (addr n : Nat) (v : Byte)
  deriving DecidableEq, Repr

/-- The causes of `ConfigError`, with what the caller gets (60_exceptions.md R166). -/
inductive ConfigCause where
  | baudRate (adde : Bool) (s k : BitVec 4)
  | badLayerSelect (mask : Word)
  deriving DecidableEq, Repr

/-- A rejection: what `raise` hands to the agent that issued the operation (60_exceptions.md R165 to R169). -/
inductive Rejection where
  | configError (cause : ConfigCause)
  /-- `info` is the register's select index (R167). -/
  | readOnlyWrite (sel : Nat)
  /-- `info` is the select index or the offset (R168). -/
  | unmappedRegister (info : Nat)
  /-- `info` is the tag (R169). -/
  | reservedTransaction (tag : BitVec 8)
  deriving DecidableEq, Repr

end Sys2Proof
end

