-- ==== Sys2Proof/Machine/Operands.lean ====
section
/-! DEFINITION. Operand assembly of a transaction (30_encoding.md R66), the register select map (R70), and the
numeric codes the spec gives to names. -/

namespace Sys2Proof.Machine

/-- `tag` = bits 23:16 (R66). -/
def txnTag (w : Txn) : BitVec 8 := w.extractLsb' 16 8

/-- A 16-bit operand is `data[15:0]` (R66). -/
def imm16 (w : Txn) : Word := w.extractLsb' 0 16

/-- An 8-bit operand is `data[7:0]`; `data[15:8]` is ignored (R66). -/
def imm8 (w : Txn) : Byte := w.extractLsb' 0 8

/-- The transaction `{tag, data}` (R66). -/
def mkTxn (tag : BitVec 8) (data : Word) : Txn := tag ++ data

/-- An 8-bit operand as `data`, ignored bits written as 0 (R84). -/
def data8 (v : Byte) : Word := (0#8 : BitVec 8) ++ v

/-- The select index of a register (R70). -/
def regSel : Reg → Nat
  | .en => 0
  | .buf => 1
  | .cr => 2
  | .mod0 => 3
  | .brcr => 4
  | .bradd => 5
  | .mod1 => 6
  | .mod2 => 7
  | .rfc => 8
  | .tfc => 9
  | .rst => 10
  | .tst => 11
  | .fcnf => 12

/-- The registers in select order (R70). -/
def regList : List Reg :=
  [.en, .buf, .cr, .mod0, .brcr, .bradd, .mod1, .mod2, .rfc, .tfc, .rst, .tst, .fcnf]

/-- The register a select index names; 13, 14 and 15 name none (R48). -/
def regOfSel (sel : Nat) : Option Reg := regList[sel]?

/-- The byte offset of a register (R48, R70). -/
def regOffset (r : Reg) : Nat := 4 * regSel r

/-- The register at a byte offset; an offset that is no `4·i` with `i` in 0 to 12 is unmapped (R48). -/
def regOfOffset (addr : Nat) : Option Reg := if addr % 4 = 0 then regOfSel (addr / 4) else none

/-- The writable-bit masks (R70). `BUF` is no masked store. -/
def wmask : Reg → Byte
  | .en => 0x01
  | .buf => 0x00
  | .cr => 0x01
  | .mod0 => 0x2C
  | .brcr => 0x7F
  | .bradd => 0x0F
  | .mod1 => 0x7E
  | .mod2 => 0x03
  | .rfc => 0xC3
  | .tfc => 0xC3
  | .rst => 0x00
  | .tst => 0x00
  | .fcnf => 0x17

/-- The format codes 0 to 7 (R64). -/
def formatCode : Format → BitVec 3
  | .f0 => 0
  | .f1 => 1
  | .f2 => 2
  | .f3 => 3
  | .f4 => 4
  | .f5 => 5
  | .f6 => 6
  | .f7 => 7

/-- The flow class codes; 7 is never produced (R65). -/
def flowCode : FlowClass → BitVec 3
  | .none => 0
  | .jmp => 1
  | .call => 2
  | .ret => 3
  | .branch => 4
  | .interrupt => 5
  | .interruptEnable => 6

/-- The rejection codes (60_exceptions.md R166 to R169). -/
def rejectionCode : Rejection → Nat
  | .configError _ => 1
  | .readOnlyWrite _ => 2
  | .unmappedRegister _ => 3
  | .reservedTransaction _ => 4

/-- The sub-codes of `ConfigError` (60_exceptions.md R166). -/
def configSubcode : ConfigCause → Nat
  | .baudRate _ _ _ => 1
  | .badLayerSelect _ => 2

/-- The code of a port, the top two bits of its tags (R67). -/
def portCode : Port → BitVec 2
  | .registerBus => 0
  | .dataClock => 1
  | .decoder => 2

end Sys2Proof.Machine
end

