-- ==== Sys2Proof/Decode.lean ====
section
/-! DEFINITION. The decoder of requests, total and rejecting by name, and the encoder (30_encoding.md sections 3
and 5, 20_memory.md R50). -/

namespace Sys2Proof

open Machine

/-- One row of the tag map (30_encoding.md R67): a tag and the operation its transactions select. -/
structure TagRow where
  tag : BitVec 8
  instr : Txn → Instr

/-- The register-bus reads, tags 0x00 to 0x0C (R67). -/
def readRows : List TagRow :=
  [ ⟨0x00, fun _ => .rdEn⟩, ⟨0x01, fun _ => .rdBuf⟩, ⟨0x02, fun _ => .rdCr⟩, ⟨0x03, fun _ => .rdMod0⟩,
    ⟨0x04, fun _ => .rdBrcr⟩, ⟨0x05, fun _ => .rdBradd⟩, ⟨0x06, fun _ => .rdMod1⟩, ⟨0x07, fun _ => .rdMod2⟩,
    ⟨0x08, fun _ => .rdRfc⟩, ⟨0x09, fun _ => .rdTfc⟩, ⟨0x0A, fun _ => .rdRst⟩, ⟨0x0B, fun _ => .rdTst⟩,
    ⟨0x0C, fun _ => .rdFcnf⟩ ]

/-- The register-bus writes, tags 0x10 to 0x1C (R67). -/
def writeRows : List TagRow :=
  [ ⟨0x10, fun w => .wrEn (imm8 w)⟩, ⟨0x11, fun w => .wrBuf (imm8 w)⟩, ⟨0x12, fun w => .wrCr (imm8 w)⟩,
    ⟨0x13, fun w => .wrMod0 (imm8 w)⟩, ⟨0x14, fun w => .wrBrcr (imm8 w)⟩, ⟨0x15, fun w => .wrBradd (imm8 w)⟩,
    ⟨0x16, fun w => .wrMod1 (imm8 w)⟩, ⟨0x17, fun w => .wrMod2 (imm8 w)⟩, ⟨0x18, fun w => .wrRfc (imm8 w)⟩,
    ⟨0x19, fun w => .wrTfc (imm8 w)⟩, ⟨0x1A, fun w => .wrRst (imm8 w)⟩, ⟨0x1B, fun w => .wrTst (imm8 w)⟩,
    ⟨0x1C, fun w => .wrFcnf (imm8 w)⟩ ]

/-- The data path, clock and decoder ports (R67). -/
def otherRows : List TagRow :=
  [ ⟨0x40, fun w => .send (imm8 w)⟩, ⟨0x41, fun w => .receive (imm8 w)⟩, ⟨0x42, fun _ => .tick⟩,
    ⟨0x43, fun _ => .freq⟩, ⟨0x80, fun w => .decLookup (imm16 w)⟩, ⟨0x81, fun w => .decBuild (imm16 w)⟩ ]

/-- The tag map (R67). -/
def tagMap : List TagRow := readRows ++ writeRows ++ otherRows

/-- The rejection of a tag the map does not list: `UnmappedRegister` with the select index for the six register-bus
tags with `sel` 13 to 15, `ReservedTransaction` with the tag for every other (R68). -/
def badTag (tag : BitVec 8) : Rejection :=
  if tag.toNat < 0x20 then .unmappedRegister (tag.toNat % 16) else .reservedTransaction tag

/-- The operation a transaction selects, or its rejection (R67, R68). -/
def decodeTxn (w : Txn) : Except Rejection Instr :=
  match tagMap.find? (fun row => row.tag == txnTag w) with
  | some row => .ok (row.instr w)
  | none => .error (badTag (txnTag w))

/-- `RD.<reg>`. -/
def readInstr : Reg → Instr
  | .en => .rdEn
  | .buf => .rdBuf
  | .cr => .rdCr
  | .mod0 => .rdMod0
  | .brcr => .rdBrcr
  | .bradd => .rdBradd
  | .mod1 => .rdMod1
  | .mod2 => .rdMod2
  | .rfc => .rdRfc
  | .tfc => .rdTfc
  | .rst => .rdRst
  | .tst => .rdTst
  | .fcnf => .rdFcnf

/-- `WR.<reg>(v)`. -/
def writeInstr (v : Byte) : Reg → Instr
  | .en => .wrEn v
  | .buf => .wrBuf v
  | .cr => .wrCr v
  | .mod0 => .wrMod0 v
  | .brcr => .wrBrcr v
  | .bradd => .wrBradd v
  | .mod1 => .wrMod1 v
  | .mod2 => .wrMod2 v
  | .rfc => .wrRfc v
  | .tfc => .wrTfc v
  | .rst => .wrRst v
  | .tst => .wrTst v
  | .fcnf => .wrFcnf v

/-- The register a bus access of `n` bytes at offset `addr` reaches; a size other than 1 or an offset that is not
mapped is `UnmappedRegister` (20_memory.md R50, R52). The info is the offset (log 12). -/
def decodeAccess (addr n : Nat) : Except Rejection Reg :=
  if n = 1 then
    match regOfOffset addr with
    | some r => .ok r
    | none => .error (.unmappedRegister addr)
  else .error (.unmappedRegister addr)

/-- The operation a request asks for, or its rejection. A bare instruction word always decodes (30_encoding.md R69). -/
def Request.decode : Request → Except Rejection Instr
  | .txn w => decodeTxn w
  | .word w => .ok (.unknown w)
  | .memRead addr n => (decodeAccess addr n).map readInstr
  | .memWrite addr n v => (decodeAccess addr n).map (writeInstr v)

/-- The request that presents an operation, ignored bits written as 0 (R67, R84). -/
def encode : Instr → Request
  | .rdEn => .txn (mkTxn 0x00 0)
  | .wrEn v => .txn (mkTxn 0x10 (data8 v))
  | .rdBuf => .txn (mkTxn 0x01 0)
  | .wrBuf v => .txn (mkTxn 0x11 (data8 v))
  | .rdCr => .txn (mkTxn 0x02 0)
  | .wrCr v => .txn (mkTxn 0x12 (data8 v))
  | .rdMod0 => .txn (mkTxn 0x03 0)
  | .wrMod0 v => .txn (mkTxn 0x13 (data8 v))
  | .rdBrcr => .txn (mkTxn 0x04 0)
  | .wrBrcr v => .txn (mkTxn 0x14 (data8 v))
  | .rdBradd => .txn (mkTxn 0x05 0)
  | .wrBradd v => .txn (mkTxn 0x15 (data8 v))
  | .rdMod1 => .txn (mkTxn 0x06 0)
  | .wrMod1 v => .txn (mkTxn 0x16 (data8 v))
  | .rdMod2 => .txn (mkTxn 0x07 0)
  | .wrMod2 v => .txn (mkTxn 0x17 (data8 v))
  | .rdRfc => .txn (mkTxn 0x08 0)
  | .wrRfc v => .txn (mkTxn 0x18 (data8 v))
  | .rdTfc => .txn (mkTxn 0x09 0)
  | .wrTfc v => .txn (mkTxn 0x19 (data8 v))
  | .rdRst => .txn (mkTxn 0x0A 0)
  | .wrRst v => .txn (mkTxn 0x1A (data8 v))
  | .rdTst => .txn (mkTxn 0x0B 0)
  | .wrTst v => .txn (mkTxn 0x1B (data8 v))
  | .rdFcnf => .txn (mkTxn 0x0C 0)
  | .wrFcnf v => .txn (mkTxn 0x1C (data8 v))
  | .send v => .txn (mkTxn 0x40 (data8 v))
  | .receive v => .txn (mkTxn 0x41 (data8 v))
  | .tick => .txn (mkTxn 0x42 0)
  | .freq => .txn (mkTxn 0x43 0)
  | .decLookup w => .txn (mkTxn 0x80 w)
  | .decBuild cfg => .txn (mkTxn 0x81 cfg)
  | .unknown w => .word w

/-- The port an operation is presented at (R67; a bare word arrives at the decoder port). -/
def Instr.port : Instr → Port
  | .rdEn | .wrEn _ | .rdBuf | .wrBuf _ | .rdCr | .wrCr _ | .rdMod0 | .wrMod0 _ | .rdBrcr | .wrBrcr _
  | .rdBradd | .wrBradd _ | .rdMod1 | .wrMod1 _ | .rdMod2 | .wrMod2 _ | .rdRfc | .wrRfc _ | .rdTfc | .wrTfc _
  | .rdRst | .wrRst _ | .rdTst | .wrTst _ | .rdFcnf | .wrFcnf _ => .registerBus
  | .send _ | .receive _ | .tick | .freq => .dataClock
  | .decLookup _ | .decBuild _ | .unknown _ => .decoder

/-- A row of spec/opcode_table.json as a request: a row of 16 bits is the pattern over an instruction word, a longer
one a transaction (log 10, log 11). -/
def tableRequest (nbits w : Nat) : Request :=
  if nbits ≤ 16 then .word (BitVec.ofNat 16 w) else .txn (BitVec.ofNat 24 w)

/-- The instruction the decoder reads from the bits of a table row. -/
def decodeTableWord (nbits w : Nat) : Option Instr :=
  match (tableRequest nbits w).decode with
  | .ok i => some i
  | .error _ => none

end Sys2Proof
end

