-- ==== Sys2Proof/Machine/Rom.lean ====
section
/-! DEFINITION. The decoder ROM: the table, what a pattern claims, the layers in order, and the construction
(10_state.md R13 to R19, 30_encoding.md R61, 40_decoder.md R85 to R93). -/

namespace Sys2Proof.Machine

/-- The ROM as (slot, reference) pairs in canonical form: slots strictly rising and below 65,536, no pair holding
reference 0, which is what an unlisted slot reads as. Log 8. -/
abbrev Rom := List (Nat × Nat)

/-- A descriptor with its reference, its index in `DESC` (10_state.md R14). -/
abbrev Entry := Nat × Descriptor

/-- The table the catch-all layer `L0` leaves: every slot reads 0, the reference of UNKNOWN (40_decoder.md R85). -/
def romBlank : Rom := []

/-- The reference in slot `a` (40_decoder.md R91). -/
def romRead : Rom → Nat → Nat
  | [], _ => 0
  | (b, q) :: t, a => if a = b then q else romRead t a

/-- Store reference `r` in slot `a`, keeping the canonical form. -/
def romWrite : Rom → Nat → Nat → Rom
  | [], a, r => if r = 0 then [] else [(a, r)]
  | (b, q) :: t, a, r =>
    if a < b then (if r = 0 then (b, q) :: t else (a, r) :: (b, q) :: t)
    else if a = b then (if r = 0 then t else (a, r) :: t)
    else (b, q) :: romWrite t a r

/-- The canonical form from slot `lo` on. -/
def romWfFrom : Nat → Rom → Bool
  | _, [] => true
  | lo, (a, r) :: t => decide (lo ≤ a) && decide (a < Config.romSlots) && decide (r ≠ 0) && romWfFrom (a + 1) t

/-- The canonical form. Two tables in it that read alike in every slot are equal. -/
def romWf (t : Rom) : Bool := romWfFrom 0 t

/-- The words `acc` followed by `n` more bits, each bit 1 where the encoding's is, 0 where only the mask's is, and both
where neither is: the words `encoding | x` with `x & mask = 0` (30_encoding.md R61), in rising order. -/
def slotWords : Nat → Nat → Nat → Nat → List Nat
  | 0, _, _, acc => [acc]
  | n + 1, e, m, acc =>
    if e.testBit n then slotWords n e m (2 * acc + 1)
    else if m.testBit n then slotWords n e m (2 * acc)
    else slotWords n e m (2 * acc) ++ slotWords n e m (2 * acc + 1)

/-- The slots a descriptor claims (30_encoding.md R61). -/
def claimedSlots (d : Descriptor) : List Nat := slotWords 16 d.encoding.toNat d.mask.toNat 0

/-- Whether a pattern claims a word, in the form of R61 that holds of every pattern, well formed or not. -/
def claims (d : Descriptor) (w : Word) : Bool :=
  (w &&& d.mask == d.encoding &&& d.mask)
    && (w &&& (d.encoding &&& ~~~d.mask) == d.encoding &&& ~~~d.mask)

/-- `apply(T, d)`: every claimed slot takes the reference, slot by slot (40_decoder.md R88). -/
def romApply (t : Rom) (e : Entry) : Rom :=
  (claimedSlots e.2).foldr (fun w acc => romWrite acc w e.1) t

/-- The UNKNOWN descriptor, `DESC[0]`, the only member of `L0` (40_decoder.md R86; log 20). -/
def unknownDesc : Descriptor where
  encoding := 0x0000
  mask := 0x0000
  format := .f0
  extraWordsX := 0
  extraWordsY := 0
  name := "UNKNOWN"
  displayFormat := ""
  action := ""
  flowClass := .none
  isConditional := false
  hasDelaySlot := false

/-- `DESC`: UNKNOWN, then `BASE`, then each `ALT[i]`, in list order (10_state.md R14). -/
def descStore (L : Layers) : List Descriptor := unknownDesc :: (L.base ++ L.alt.flatten)

/-- `DESC[k]`. A reference past the end, which no operation stores (10_state.md R17), reads as UNKNOWN (log 9). -/
def descAt (L : Layers) (k : Nat) : Descriptor := (descStore L).getD k unknownDesc

/-- The descriptors of one layer with their references, the first of them `n`. -/
def numberLayer : Nat → List Descriptor → List Entry
  | _, [] => []
  | n, d :: ds => (n, d) :: numberLayer (n + 1) ds

/-- The optional layers with their references, the first of them `n`. -/
def numberAlts : Nat → List (List Descriptor) → List (List Entry)
  | _, [] => []
  | n, l :: ls => numberLayer n l :: numberAlts (n + l.length) ls

/-- The enabled optional layers in index order, the head of the list being enabled by bit `i` (40_decoder.md R85). -/
def enabledEntries (cfg : Word) : Nat → List (List Entry) → List Entry
  | _, [] => []
  | i, l :: ls => (if cfg.getLsbD i then l else []) ++ enabledEntries cfg (i + 1) ls

/-- The descriptors DEC.BUILD applies after the catch-all layer, in order (40_decoder.md R87). -/
def overlaySeq (L : Layers) (cfg : Word) : List Entry :=
  numberLayer 1 L.base ++ enabledEntries cfg 0 (numberAlts (1 + L.base.length) L.alt)

/-- `seq(cfg)` (40_decoder.md R92). -/
def buildSeq (L : Layers) (cfg : Word) : List Entry := (0, unknownDesc) :: overlaySeq L cfg

/-- The table DEC.BUILD(`cfg`) computes (40_decoder.md R87). -/
def romBuild (L : Layers) (cfg : Word) : Rom := (overlaySeq L cfg).foldl romApply romBlank

/-- The reference of the last descriptor of a sequence that claims `w` (40_decoder.md R92). -/
def lastClaiming (w : Word) : List Entry → Option Nat
  | [] => none
  | e :: es =>
    match lastClaiming w es with
    | some k => some k
    | none => if claims e.2 w then some e.1 else none

/-- The length of the instruction a descriptor governs, in 16-bit words (30_encoding.md R63). -/
def instrLength (d : Descriptor) : Nat := 1 + d.extraWordsX.val + d.extraWordsY.val

end Sys2Proof.Machine
end

