-- ==== Sys2Proof/Machine/State.lean ====
section
/-! DEFINITION. The state of the block as plain data (10_state.md), its outputs, and the machine after reset
(10_state.md R45, 70_reset_and_hazards.md R187). A register is held as its fields: the bits outside every field are
not stored (93_implementation_defined.md U12). -/

namespace Sys2Proof.Machine

/-- `EN` (10_state.md R23). -/
structure En where
  sioe : Bool
  deriving DecidableEq, Repr

/-- `CR` (10_state.md R25). -/
structure Cr where
  oerr : Bool
  perr : Bool
  ferr : Bool
  ioc : Bool
  deriving DecidableEq, Repr

/-- `MOD0` (10_state.md R26). -/
structure Mod0 where
  rxe : Bool
  sm : BitVec 2
  deriving DecidableEq, Repr

/-- `MOD1` (10_state.md R27). -/
structure Mod1 where
  fdpx : BitVec 2
  txe : Bool
  sint : BitVec 3
  deriving DecidableEq, Repr

/-- `MOD2` (10_state.md R28). -/
structure Mod2 where
  tbe : Bool
  rbf : Bool
  txrun : Bool
  swrst : BitVec 2
  deriving DecidableEq, Repr

/-- `BRCR` (10_state.md R29). -/
structure Brcr where
  adde : Bool
  ck : BitVec 2
  s : BitVec 4
  deriving DecidableEq, Repr

/-- `BRADD` (10_state.md R30). -/
structure Bradd where
  k : BitVec 4
  deriving DecidableEq, Repr

/-- `RFC` (10_state.md R31). -/
structure Rfc where
  rfcs : Bool
  rfis : Bool
  ril : BitVec 2
  deriving DecidableEq, Repr

/-- `TFC` (10_state.md R32). -/
structure Tfc where
  tfcs : Bool
  tfis : Bool
  til : BitVec 2
  deriving DecidableEq, Repr

/-- `RST`, of which only `ROR` is stored (10_state.md R33, R22). -/
structure Rst where
  ror : Bool
  deriving DecidableEq, Repr

/-- `FCNF` (10_state.md R35). -/
structure Fcnf where
  rfst : Bool
  rfie : Bool
  rxtxcnt : Bool
  cnfg : Bool
  deriving DecidableEq, Repr

/-- The whole state of the SIO (10_state.md R22). `BUF` and `TST` store nothing. -/
structure Sio where
  en : En
  cr : Cr
  mod0 : Mod0
  mod1 : Mod1
  mod2 : Mod2
  brcr : Brcr
  bradd : Bradd
  rfc : Rfc
  tfc : Tfc
  rst : Rst
  fcnf : Fcnf
  txSlot : Byte
  rxSlot : Byte
  txq : List Byte
  rxq : List Byte
  scheduled : Bool
  deriving DecidableEq, Repr

/-- The diagnostics (10_state.md R44). -/
inductive LogKind where
  | sendDropped | recvDropped | txUnderrun | txFifoUnderrun | uartModeUnimplemented
  deriving DecidableEq, Repr

/-- What an operation emits (10_state.md R44). -/
inductive Event where
  | irq (n : Nat)
  | txOut (v : Byte)
  | sched
  | log (k : LogKind)
  deriving DecidableEq, Repr

/-- What an operation returns to its caller: a write `ok`, a read its byte, RD.BUF data or none
(41_register_access.md R102), SEND and RECEIVE their verdict (42_datapath.md R135, R140), TICK its continuation (R147),
FREQ two frequencies (43_timing.md R153), a lookup the reference and through it the record (40_decoder.md R91). -/
inductive Result where
  | ok
  | value (v : Byte)
  | data (v : Byte)
  | noData
  | accepted
  | dropped
  | overrun
  | goOn
  | finished
  | freq (baud symFreq : Nat)
  | descriptor (ref : Nat) (d : Descriptor)
  deriving DecidableEq, Repr

/-- The output port: nothing, the last operation's result and events in order, or the rejection its caller received.
A rejected operation has neither result nor event (60_exceptions.md R165). Log 3. -/
inductive Output where
  | idle
  | done (r : Result) (events : List Event)
  | rejected (e : Rejection)
  deriving DecidableEq, Repr

/-- The block with its parameters (log 5), the requests presented and not yet performed (log 1) and its output port
(log 3). `DESC` is the array `descStore params.layers` (10_state.md R14). -/
structure State where
  params : Params
  rom : Rom
  cfg : Word
  sio : Sio
  pending : List Request
  out : Output
  deriving DecidableEq, Repr

/-- Why a run stops. -/
inductive Fault where
  /-- Raised by `strictStep` of Safety.lean, which reads a rejection as a failed run (60_exceptions.md R165); never by
  `step`, which goes on as 60_exceptions.md R178 says. Safe: it stops where the block goes on. -/
  | rejected (e : Rejection)
  deriving DecidableEq, Repr

/-- Why an operation has no meaning here. -/
inductive Refusal where
  /-- An operation `exec` gives no meaning yet; no arm raises it. Safe: it stops where the block goes on. -/
  | notModelled (mnemonic : String)
  deriving DecidableEq, Repr

def State.withParams (s : State) (p : Params) : State := { s with params := p }
def State.withRom (s : State) (t : Rom) : State := { s with rom := t }
def State.withCfg (s : State) (c : Word) : State := { s with cfg := c }
def State.withSio (s : State) (u : Sio) : State := { s with sio := u }
def State.withPending (s : State) (q : List Request) : State := { s with pending := q }
def State.withOut (s : State) (o : Output) : State := { s with out := o }

def Sio.withEn (u : Sio) (r : En) : Sio := { u with en := r }
def Sio.withCr (u : Sio) (r : Cr) : Sio := { u with cr := r }
def Sio.withMod0 (u : Sio) (r : Mod0) : Sio := { u with mod0 := r }
def Sio.withMod1 (u : Sio) (r : Mod1) : Sio := { u with mod1 := r }
def Sio.withMod2 (u : Sio) (r : Mod2) : Sio := { u with mod2 := r }
def Sio.withBrcr (u : Sio) (r : Brcr) : Sio := { u with brcr := r }
def Sio.withBradd (u : Sio) (r : Bradd) : Sio := { u with bradd := r }
def Sio.withRfc (u : Sio) (r : Rfc) : Sio := { u with rfc := r }
def Sio.withTfc (u : Sio) (r : Tfc) : Sio := { u with tfc := r }
def Sio.withRst (u : Sio) (r : Rst) : Sio := { u with rst := r }
def Sio.withFcnf (u : Sio) (r : Fcnf) : Sio := { u with fcnf := r }
def Sio.withTxSlot (u : Sio) (v : Byte) : Sio := { u with txSlot := v }
def Sio.withRxSlot (u : Sio) (v : Byte) : Sio := { u with rxSlot := v }
def Sio.withTxq (u : Sio) (q : List Byte) : Sio := { u with txq := q }
def Sio.withRxq (u : Sio) (q : List Byte) : Sio := { u with rxq := q }
def Sio.withScheduled (u : Sio) (b : Bool) : Sio := { u with scheduled := b }

/-- The SIO after reset (10_state.md R45). The two slots hold any value (log 6). -/
def Sio.reset : Sio where
  en := ⟨false⟩
  cr := ⟨false, false, false, false⟩
  mod0 := ⟨false, 0⟩
  mod1 := ⟨0, false, 0⟩
  mod2 := ⟨true, false, false, 0⟩
  brcr := ⟨false, 0, 0⟩
  bradd := ⟨0⟩
  rfc := ⟨false, false, 0⟩
  tfc := ⟨false, false, 0⟩
  rst := ⟨false⟩
  fcnf := ⟨false, false, false, false⟩
  txSlot := Config.txSlotReset
  rxSlot := Config.rxSlotReset
  txq := []
  rxq := []
  scheduled := false

/-- The block after reset under given parameters: the ROM is DEC.BUILD(`CFG0`) (10_state.md R18, R45). -/
def State.resetWith (p : Params) : State where
  params := p
  rom := romBuild p.layers p.cfg0
  cfg := p.cfg0
  sio := Sio.reset
  pending := []
  out := .idle

/-- The machine right after reset (10_state.md R45, 70_reset_and_hazards.md R187). -/
def State.reset : State := State.resetWith Config.params

end Sys2Proof.Machine
end

