-- ==== Sys2Proof/Machine/Baud.lean ====
section
/-! DEFINITION. The baud-rate generator (43_timing.md R154 to R159). All arithmetic is on naturals; the only rounding
is the truncation of the two divisions. -/

namespace Sys2Proof.Machine

/-- `fin = TAP_HZ[BRCR.CK]` (R154). -/
def inputClock (p : Params) (u : Sio) : Nat := p.tapHz.get u.brcr.ck.toFin

/-- `N`: 16 when `S` = 0, else `S` (R155). -/
def divisor (u : Sio) : Nat := if u.brcr.s = 0#4 then 16 else u.brcr.s.toNat

/-- `BaudValid()` (R156). -/
def baudValid (u : Sio) : Bool :=
  if u.brcr.adde then u.bradd.k != 0#4 && divisor u != 1 && divisor u != 16 else true

/-- Sixteen times the divider (R157). -/
def den16 (u : Sio) : Nat :=
  if u.brcr.adde then 16 * divisor u + 16 - u.bradd.k.toNat else 16 * divisor u

/-- `Baud()` (R157). -/
def baudRate (p : Params) (u : Sio) : Nat := 16 * inputClock p u / den16 u

/-- `GAP[0..7]`, in clock units (R158, 00_scope.md R8). -/
def gapTable : Vector Nat 8 := #v[0, 1, 2, 4, 8, 16, 32, 64]

/-- `gap = GAP[MOD1.SINT]` (R158). -/
def gap (u : Sio) : Nat := gapTable.get u.mod1.sint.toFin

/-- `SymFreq()` (R159). -/
def symFreq (p : Params) (u : Sio) : Nat := baudRate p u / (Config.symbolBits + gap u)

/-- `ConfigError(BaudRate)`; the caller gets `ADDE`, `S` and `K` (60_exceptions.md R166). -/
def baudRejection (u : Sio) : Rejection := .configError (.baudRate u.brcr.adde u.brcr.s u.bradd.k)

end Sys2Proof.Machine
end

