-- ==== Sys2Proof/Machine/Flags.lean ====
section
/-! DEFINITION. The flag computations: the fill-level thresholds and their tests, the sticky error flags, the status
flags, and soft reset (10_state.md R38 to R41, 41_register_access.md R114, 42_datapath.md R141 to R151). -/

namespace Sys2Proof.Machine

/-- `rxThr(FDPX, RIL)` at the current register values (10_state.md R40). -/
def rxThreshold (p : Params) (u : Sio) : Nat := p.rxThr.get (u.mod1.fdpx ++ u.rfc.ril).toFin

/-- `txThr(FDPX, TIL)` at the current register values (10_state.md R41). -/
def txThreshold (p : Params) (u : Sio) : Nat := p.txThr.get (u.mod1.fdpx ++ u.tfc.til).toFin

/-- `RxHit(n)`: `RFIS` = 0 equality, `RFIS` = 1 at or above (42_datapath.md R144). -/
def rxHit (p : Params) (u : Sio) (n : Nat) : Bool :=
  if u.rfc.rfis then decide (rxThreshold p u ≤ n) else decide (n = rxThreshold p u)

/-- `TxHit(n)`: `TFIS` = 0 equality, `TFIS` = 1 at or below (42_datapath.md R146). -/
def txHit (p : Params) (u : Sio) (n : Nat) : Bool :=
  if u.tfc.tfis then decide (n ≤ txThreshold p u) else decide (n = txThreshold p u)

/-- The usable capacity of the receive queue (42_datapath.md R142). -/
def usableCapacity (p : Params) (u : Sio) : Nat := if u.fcnf.rfst then rxThreshold p u else p.rxqCap

/-- The interface, the receive path and the duplex direction all permit reception (42_datapath.md R141). -/
def receivePermitted (u : Sio) : Bool :=
  u.en.sioe && u.mod0.rxe && (u.mod1.fdpx == 1#2 || u.mod1.fdpx == 3#2)

/-- `CR.OERR <- 1`, the receive overrun (42_datapath.md R143, R145). -/
def flagOverrun (u : Sio) : Sio := u.withCr { u.cr with oerr := true }

/-- `RST.ROR <- 1`, the FIFO-specific overrun bit (42_datapath.md R145). -/
def flagFifoOverrun (u : Sio) : Sio := u.withRst ⟨true⟩

/-- `CR.PERR <- 1` when the device is internally clocked, `IOC` = 0 (42_datapath.md R149, R150). -/
def flagUnderrun (u : Sio) : Sio := if u.cr.ioc then u else u.withCr { u.cr with perr := true }

/-- The three sticky flags cleared, `IOC` kept (41_register_access.md R104). -/
def clearErrors (u : Sio) : Sio := u.withCr { u.cr with oerr := false, perr := false, ferr := false }

/-- `RST.ROR <- 0` (41_register_access.md R123). -/
def clearRor (u : Sio) : Sio := u.withRst ⟨false⟩

/-- `MOD2.TBE <- b`. -/
def setTbe (u : Sio) (b : Bool) : Sio := u.withMod2 { u.mod2 with tbe := b }

/-- `MOD2.RBF <- b`. -/
def setRbf (u : Sio) (b : Bool) : Sio := u.withMod2 { u.mod2 with rbf := b }

/-- `MOD0.RXE <- 0`. -/
def clearRxe (u : Sio) : Sio := u.withMod0 { u.mod0 with rxe := false }

/-- `MOD1.TXE <- 0`. -/
def clearTxe (u : Sio) : Sio := u.withMod1 { u.mod1 with txe := false }

/-- SoftReset: these eight bits go to 0 and nothing else changes (41_register_access.md R114; log 17). -/
def softReset (u : Sio) : Sio :=
  clearErrors
    ((clearTxe (clearRxe u)).withMod2 { u.mod2 with tbe := false, rbf := false, txrun := false })

end Sys2Proof.Machine
end

