-- ==== Sys2Proof/Machine/Layout.lean ====
section
/-! DEFINITION. The bit layout of every register, in both directions (30_encoding.md R71 to R83): the byte assembled
from the fields, 0 in every bit outside a field, and the fields found in a byte. -/

namespace Sys2Proof.Machine

/-- R71. -/
def En.toByte (r : En) : Byte := 0#7 ++ bit r.sioe

/-- R71. -/
def En.ofByte (b : Byte) : En := ⟨b.getLsbD 0⟩

/-- R73. -/
def Cr.toByte (r : Cr) : Byte := 0#3 ++ bit r.oerr ++ bit r.perr ++ bit r.ferr ++ 0#1 ++ bit r.ioc

/-- R73. -/
def Cr.ofByte (b : Byte) : Cr := ⟨b.getLsbD 4, b.getLsbD 3, b.getLsbD 2, b.getLsbD 0⟩

/-- R74. -/
def Mod0.toByte (r : Mod0) : Byte := 0#2 ++ bit r.rxe ++ 0#1 ++ r.sm ++ 0#2

/-- R74. -/
def Mod0.ofByte (b : Byte) : Mod0 := ⟨b.getLsbD 5, b.extractLsb' 2 2⟩

/-- R75. -/
def Mod1.toByte (r : Mod1) : Byte := 0#1 ++ r.fdpx ++ bit r.txe ++ r.sint ++ 0#1

/-- R75. -/
def Mod1.ofByte (b : Byte) : Mod1 := ⟨b.extractLsb' 5 2, b.getLsbD 4, b.extractLsb' 1 3⟩

/-- R76. -/
def Mod2.toByte (r : Mod2) : Byte := bit r.tbe ++ bit r.rbf ++ bit r.txrun ++ 0#3 ++ r.swrst

/-- R76. -/
def Mod2.ofByte (b : Byte) : Mod2 := ⟨b.getLsbD 7, b.getLsbD 6, b.getLsbD 5, b.extractLsb' 0 2⟩

/-- R77. -/
def Brcr.toByte (r : Brcr) : Byte := 0#1 ++ bit r.adde ++ r.ck ++ r.s

/-- R77. -/
def Brcr.ofByte (b : Byte) : Brcr := ⟨b.getLsbD 6, b.extractLsb' 4 2, b.extractLsb' 0 4⟩

/-- R78. -/
def Bradd.toByte (r : Bradd) : Byte := 0#4 ++ r.k

/-- R78. -/
def Bradd.ofByte (b : Byte) : Bradd := ⟨b.extractLsb' 0 4⟩

/-- R79. -/
def Rfc.toByte (r : Rfc) : Byte := bit r.rfcs ++ bit r.rfis ++ 0#4 ++ r.ril

/-- R79. -/
def Rfc.ofByte (b : Byte) : Rfc := ⟨b.getLsbD 7, b.getLsbD 6, b.extractLsb' 0 2⟩

/-- R80. -/
def Tfc.toByte (r : Tfc) : Byte := bit r.tfcs ++ bit r.tfis ++ 0#4 ++ r.til

/-- R80. -/
def Tfc.ofByte (b : Byte) : Tfc := ⟨b.getLsbD 7, b.getLsbD 6, b.extractLsb' 0 2⟩

/-- R83. -/
def Fcnf.toByte (r : Fcnf) : Byte :=
  0#3 ++ bit r.rfst ++ 0#1 ++ bit r.rfie ++ bit r.rxtxcnt ++ bit r.cnfg

/-- R83. -/
def Fcnf.ofByte (b : Byte) : Fcnf := ⟨b.getLsbD 4, b.getLsbD 2, b.getLsbD 1, b.getLsbD 0⟩

/-- A level field: min(length, 7) in three bits (10_state.md R33, R34). -/
def level (q : List Byte) : BitVec 3 := BitVec.ofNat 3 (min q.length 7)

/-- `RST`: the stored `ROR` and the computed `RLVL` (R81). -/
def rstByte (u : Sio) : Byte := bit u.rst.ror ++ 0#4 ++ level u.rxq

/-- `TST`: the computed `TLVL` (R82). -/
def tstByte (u : Sio) : Byte := 0#5 ++ level u.txq

/-- `x[i]`, the register's 8 bits with no side effect (00_scope.md R11, 41_register_access.md R101). `BUF` has no
storage of its own (10_state.md R24). -/
def regView (u : Sio) : Reg → Option Byte
  | .en => some u.en.toByte
  | .buf => none
  | .cr => some u.cr.toByte
  | .mod0 => some u.mod0.toByte
  | .brcr => some u.brcr.toByte
  | .bradd => some u.bradd.toByte
  | .mod1 => some u.mod1.toByte
  | .mod2 => some u.mod2.toByte
  | .rfc => some u.rfc.toByte
  | .tfc => some u.tfc.toByte
  | .rst => some (rstByte u)
  | .tst => some (tstByte u)
  | .fcnf => some u.fcnf.toByte

/-- The masked store of register `i`: `(x[i] & ~WMASK[i]) | (v & WMASK[i])` (41_register_access.md R100). -/
def maskedStore (i : Reg) (cur v : Byte) : Byte := (cur &&& ~~~wmask i) ||| (v &&& wmask i)

end Sys2Proof.Machine
end

