-- ==== Sys2Proof/Machine/Ops.lean ====
section
/-! DEFINITION. The shared operations: completing an operation, the rejection of one, the queue and slot moves, SEND,
RECEIVE, TakeTx and TICK on the SIO, the ROM lookup and build (42_datapath.md, 40_decoder.md, 60_exceptions.md R165). -/

namespace Sys2Proof.Machine

/-- What an operation of the SIO leaves when it is not rejected. -/
structure Reply where
  sio : Sio
  result : Result
  events : List Event
  deriving DecidableEq, Repr

/-- An operation completes: the SIO is `u`, the caller gets `r`, the events are emitted. -/
def State.complete (s : State) (u : Sio) (r : Result) (es : List Event) : State :=
  (s.withSio u).withOut (.done r es)

/-- An operation that changes no state and emits nothing (41_register_access.md R101). -/
def State.answer (s : State) (r : Result) : State := s.withOut (.done r [])

/-- A rejection, the block's only exception entry: no state of the block changes, no event is emitted, nothing is
saved, and the caller receives `e` (60_exceptions.md R165, R177). There is no return from it: the next operation is
taken as if this one had never been issued (R178). Log 4. -/
def State.reject (s : State) (e : Rejection) : State := s.withOut (.rejected e)

/-- An operation of the SIO takes effect, or is rejected. -/
def State.commit (s : State) : Except Rejection Reply → State
  | .ok r => s.complete r.sio r.result r.events
  | .error e => s.reject e

/-- `txSlot <- v ; MOD2.TBE <- 0` (42_datapath.md R137). -/
def fillTxSlot (u : Sio) (v : Byte) : Sio := setTbe (u.withTxSlot v) false

/-- `txq <- txq ++ [v]`, no capacity check (42_datapath.md R138; log 15). -/
def pushTxq (u : Sio) (v : Byte) : Sio := u.withTxq (u.txq ++ [v])

/-- SEND's value enters the path `FCNF.CNFG` selects (42_datapath.md R137, R138). -/
def acceptTx (u : Sio) (v : Byte) : Sio := if u.fcnf.cnfg then pushTxq u v else fillTxSlot u v

/-- A SEND registers the SIO when `TXE` = 1 and it is not registered (42_datapath.md R139). -/
def registers (u : Sio) : Bool := u.mod1.txe && !u.scheduled

/-- SEND(`v`) (42_datapath.md R135). -/
def sendReply (u : Sio) (v : Byte) : Except Rejection Reply :=
  if u.en.sioe = false then .ok ⟨u, .dropped, [.log .sendDropped]⟩
  else if registers u = true ∧ baudValid u = false then .error (baudRejection u)
  else if registers u = true then .ok ⟨(acceptTx u v).withScheduled true, .accepted, [.sched]⟩
  else .ok ⟨acceptTx u v, .accepted, []⟩

/-- The receive interrupt, gated by `FCNF.RFIE` (42_datapath.md R143, R145). -/
def rxIrqEvents (p : Params) (u : Sio) : List Event := if u.fcnf.rfie then [.irq p.rxIrq] else []

/-- RECEIVE, single-slot path (42_datapath.md R143). -/
def receiveSlot (p : Params) (u : Sio) (v : Byte) : Reply :=
  if u.mod2.rbf then ⟨flagOverrun u, .overrun, []⟩
  else ⟨setRbf (u.withRxSlot v) true, .accepted, rxIrqEvents p u⟩

/-- A threshold hit with auto-disable clears receive-enable (42_datapath.md R145). -/
def autoDisableRx (u : Sio) : Sio := if u.fcnf.rxtxcnt then clearRxe u else u

/-- RECEIVE, FIFO path (42_datapath.md R145). -/
def receiveFifo (p : Params) (u : Sio) (v : Byte) : Reply :=
  if usableCapacity p u ≤ u.rxq.length then ⟨flagFifoOverrun (flagOverrun u), .overrun, []⟩
  else if rxHit p u (u.rxq.length + 1) then
    ⟨autoDisableRx (u.withRxq (u.rxq ++ [v])), .accepted, rxIrqEvents p u⟩
  else ⟨u.withRxq (u.rxq ++ [v]), .accepted, []⟩

/-- RECEIVE(`v`) (42_datapath.md R140). -/
def receiveReply (p : Params) (u : Sio) (v : Byte) : Reply :=
  if receivePermitted u = false then ⟨u, .dropped, [.log .recvDropped]⟩
  else if u.fcnf.cnfg then receiveFifo p u v
  else receiveSlot p u v

/-- What TakeTx returns: `Data(v)` or `NoData`, and whether the auto-disable assignment ran (42_datapath.md R148). -/
structure Taken where
  sio : Sio
  value : Option Byte
  txeCleared : Bool
  events : List Event
  deriving DecidableEq, Repr

/-- TakeTx, single-slot path (42_datapath.md R149). -/
def takeSlot (u : Sio) : Taken :=
  if u.mod2.tbe then ⟨flagUnderrun u, none, false, [.log .txUnderrun]⟩
  else ⟨setTbe u true, some u.txSlot, false, []⟩

/-- TakeTx, FIFO underrun (42_datapath.md R150). -/
def fifoUnderrun (p : Params) (u : Sio) : Taken :=
  ⟨if p.fifoUnderrunSetsFlag then flagUnderrun u else u, none, false, [.log .txFifoUnderrun]⟩

/-- TakeTx, FIFO pop of the head `v` leaving `q` (42_datapath.md R151). -/
def popTxq (p : Params) (u : Sio) (v : Byte) (q : List Byte) : Taken :=
  if txHit p u q.length then
    ⟨if u.fcnf.rxtxcnt then clearTxe (u.withTxq q) else u.withTxq q, some v, u.fcnf.rxtxcnt, [.irq p.txIrq]⟩
  else ⟨u.withTxq q, some v, false, []⟩

/-- TakeTx on the FIFO path. -/
def takeFifo (p : Params) (u : Sio) : Taken :=
  match u.txq with
  | [] => fifoUnderrun p u
  | v :: q => popTxq p u v q

/-- TakeTx, the source's `takeTransmittedValue()` (42_datapath.md R148). -/
def takeTx (p : Params) (u : Sio) : Taken := if u.fcnf.cnfg then takeFifo p u else takeSlot u

/-- The events of a tick: TakeTx's, then the symbol on the line (42_datapath.md R152, 60_exceptions.md R176). -/
def tickEvents (t : Taken) : List Event :=
  match t.value with
  | some v => t.events ++ [.txOut v]
  | none => t.events

/-- The reply of a tick that took `t`: `Done` deregisters the SIO (42_datapath.md R147). -/
def tickFinish (t : Taken) : Reply :=
  if t.value = none ∨ t.txeCleared = true then ⟨t.sio.withScheduled false, .finished, tickEvents t⟩
  else ⟨t.sio, .goOn, tickEvents t⟩

/-- TICK, enabled only while registered; presented otherwise it is rejected with its tag (42_datapath.md R147). -/
def tickReply (p : Params) (u : Sio) : Except Rejection Reply :=
  if u.scheduled then .ok (tickFinish (takeTx p u)) else .error (.reservedTransaction 0x42#8)

/-- RD.BUF (41_register_access.md R102). -/
def readBuf (u : Sio) : Reply :=
  if u.fcnf.cnfg then
    match u.rxq with
    | [] => ⟨u, .noData, []⟩
    | v :: q => ⟨u.withRxq q, .data v, []⟩
  else if u.mod2.rbf then ⟨setRbf u false, .data u.rxSlot, []⟩
  else ⟨u, .noData, []⟩

/-- WR.BUF(`v`): SEND with all its effects when enabled, a preload of `txSlot` when not (41_register_access.md R103). A
write that is not rejected is `ok` (95_test_vectors.md section 0; log 12). -/
def writeBuf (u : Sio) (v : Byte) : Except Rejection Reply :=
  if u.en.sioe then (sendReply u v).map fun r => { r with result := .ok }
  else .ok ⟨u.withTxSlot v, .ok, []⟩

/-- FREQ: the baud rate and the symbol frequency (43_timing.md R153). -/
def freqReply (p : Params) (u : Sio) : Except Rejection Reply :=
  if baudValid u then .ok ⟨u, .freq (baudRate p u) (symFreq p u), []⟩ else .error (baudRejection u)

/-- DEC.LOOKUP(`w`) = `DESC[ROM[w]]`: the reference and its record (40_decoder.md R91). -/
def State.lookup (s : State) (w : Word) : Result :=
  .descriptor (romRead s.rom w.toNat) (descAt s.params.layers (romRead s.rom w.toNat))

/-- DEC.BUILD(`cfg`): the whole table and the configuration in one step, or `ConfigError(BadLayerSelect)` before
anything is written (40_decoder.md R87, R97; 20_memory.md R58). -/
def State.build (s : State) (cfg : Word) : State :=
  if cfg >>> s.params.layers.nalt = 0#16 then
    ((s.withRom (romBuild s.params.layers cfg)).withCfg cfg).withOut (.done .ok [])
  else s.reject (.configError (.badLayerSelect cfg))

end Sys2Proof.Machine
end

