-- ==== Sys2Proof/Machine/DataPath.lean ====
section
/-! DEFINITION. The data path and clock port: SEND, RECEIVE, TICK (42_datapath.md) and FREQ (43_timing.md). -/

namespace Sys2Proof.Machine

/-- SEND (R135). -/
def execSend (v : Byte) (s : State) : Host.Outcome State Fault Refusal := .next (s.commit (sendReply s.sio v))

/-- RECEIVE (R140). -/
def execReceive (v : Byte) (s : State) : Host.Outcome State Fault Refusal :=
  .next (s.commit (.ok (receiveReply s.params s.sio v)))

/-- TICK (R147). -/
def execTick (s : State) : Host.Outcome State Fault Refusal := .next (s.commit (tickReply s.params s.sio))

/-- FREQ (R153). -/
def execFreq (s : State) : Host.Outcome State Fault Refusal := .next (s.commit (freqReply s.params s.sio))

end Sys2Proof.Machine
end

