-- ==== Sys2Proof/Machine/Decoder.lean ====
section
/-! DEFINITION. The decoder port: DEC.LOOKUP, DEC.BUILD and the bare instruction word (40_decoder.md). -/

namespace Sys2Proof.Machine

/-- DEC.LOOKUP (R91). -/
def execDecLookup (w : Word) (s : State) : Host.Outcome State Fault Refusal := .next (s.answer (s.lookup w))

/-- DEC.BUILD (R87). -/
def execDecBuild (cfg : Word) (s : State) : Host.Outcome State Fault Refusal := .next (s.build cfg)

/-- A bare instruction word: the catch-all pattern claims it, and the descriptor returned is the one of the last layer
that claims it, UNKNOWN where no later layer does (30_encoding.md R69, R86, R89). Log 10. -/
def execUnknown (w : Word) (s : State) : Host.Outcome State Fault Refusal := .next (s.answer (s.lookup w))

end Sys2Proof.Machine
end

