-- ==== Sys2Proof/Machine/RegRead.lean ====
section
/-! DEFINITION. The register reads RD.x (41_register_access.md). -/

namespace Sys2Proof.Machine

/-- RD.EN (R106). -/
def execRdEn (s : State) : Host.Outcome State Fault Refusal := .next (s.answer (.value s.sio.en.toByte))

/-- RD.BUF (R102). -/
def execRdBuf (s : State) : Host.Outcome State Fault Refusal := .next (s.commit (.ok (readBuf s.sio)))

/-- RD.CR, read-then-clear (R104). -/
def execRdCr (s : State) : Host.Outcome State Fault Refusal :=
  .next (s.complete (clearErrors s.sio) (.value s.sio.cr.toByte) [])

/-- RD.MOD0 (R108). -/
def execRdMod0 (s : State) : Host.Outcome State Fault Refusal := .next (s.answer (.value s.sio.mod0.toByte))

/-- RD.BRCR (R115). -/
def execRdBrcr (s : State) : Host.Outcome State Fault Refusal := .next (s.answer (.value s.sio.brcr.toByte))

/-- RD.BRADD (R117). -/
def execRdBradd (s : State) : Host.Outcome State Fault Refusal := .next (s.answer (.value s.sio.bradd.toByte))

/-- RD.MOD1 (R110). -/
def execRdMod1 (s : State) : Host.Outcome State Fault Refusal := .next (s.answer (.value s.sio.mod1.toByte))

/-- RD.MOD2 (R113). -/
def execRdMod2 (s : State) : Host.Outcome State Fault Refusal := .next (s.answer (.value s.sio.mod2.toByte))

/-- RD.RFC (R119). -/
def execRdRfc (s : State) : Host.Outcome State Fault Refusal := .next (s.answer (.value s.sio.rfc.toByte))

/-- RD.TFC (R121). -/
def execRdTfc (s : State) : Host.Outcome State Fault Refusal := .next (s.answer (.value s.sio.tfc.toByte))

/-- RD.RST, read-then-clear (R123). -/
def execRdRst (s : State) : Host.Outcome State Fault Refusal :=
  .next (s.complete (clearRor s.sio) (.value (rstByte s.sio)) [])

/-- RD.TST (R125). -/
def execRdTst (s : State) : Host.Outcome State Fault Refusal := .next (s.answer (.value (tstByte s.sio)))

/-- RD.FCNF (R127). -/
def execRdFcnf (s : State) : Host.Outcome State Fault Refusal := .next (s.answer (.value s.sio.fcnf.toByte))

end Sys2Proof.Machine
end

