-- ==== Sys2Proof/Machine/RegWrite.lean ====
section
/-! DEFINITION. The register writes WR.x: the masked store of 41_register_access.md R100 and each register's own side
effects, in one step. -/

namespace Sys2Proof.Machine

/-- WR.EN (R107). -/
def execWrEn (v : Byte) (s : State) : Host.Outcome State Fault Refusal :=
  .next (s.complete (s.sio.withEn (.ofByte (maskedStore .en s.sio.en.toByte v))) .ok [])

/-- WR.BUF (R103). -/
def execWrBuf (v : Byte) (s : State) : Host.Outcome State Fault Refusal := .next (s.commit (writeBuf s.sio v))

/-- WR.CR (R105). -/
def execWrCr (v : Byte) (s : State) : Host.Outcome State Fault Refusal :=
  .next (s.complete (s.sio.withCr (.ofByte (maskedStore .cr s.sio.cr.toByte v))) .ok [])

/-- WR.MOD0, which logs a UART mode (R109). -/
def execWrMod0 (v : Byte) (s : State) : Host.Outcome State Fault Refusal :=
  .next (s.complete (s.sio.withMod0 (.ofByte (maskedStore .mod0 s.sio.mod0.toByte v))) .ok
    (if v.extractLsb' 2 2 = 0#2 then [] else [.log .uartModeUnimplemented]))

/-- WR.BRCR (R116). -/
def execWrBrcr (v : Byte) (s : State) : Host.Outcome State Fault Refusal :=
  .next (s.complete (s.sio.withBrcr (.ofByte (maskedStore .brcr s.sio.brcr.toByte v))) .ok [])

/-- WR.BRADD (R118). -/
def execWrBradd (v : Byte) (s : State) : Host.Outcome State Fault Refusal :=
  .next (s.complete (s.sio.withBradd (.ofByte (maskedStore .bradd s.sio.bradd.toByte v))) .ok [])

/-- WR.MOD1, which registers nothing (R111; log 18). -/
def execWrMod1 (v : Byte) (s : State) : Host.Outcome State Fault Refusal :=
  .next (s.complete (s.sio.withMod1 (.ofByte (maskedStore .mod1 s.sio.mod1.toByte v))) .ok [])

/-- WR.MOD2: 0b01 written over a stored 0b10 is the soft reset (R112). -/
def execWrMod2 (v : Byte) (s : State) : Host.Outcome State Fault Refusal :=
  let u := s.sio.withMod2 (.ofByte (maskedStore .mod2 s.sio.mod2.toByte v))
  .next (s.complete
    (if s.sio.mod2.swrst = 2#2 ∧ v.extractLsb' 0 2 = 1#2 then softReset u else u) .ok [])

/-- WR.RFC: `RFCS` going 0 to 1 empties `rxq` (R120). -/
def execWrRfc (v : Byte) (s : State) : Host.Outcome State Fault Refusal :=
  let u := s.sio.withRfc (.ofByte (maskedStore .rfc s.sio.rfc.toByte v))
  .next (s.complete (if s.sio.rfc.rfcs = false ∧ v.getLsbD 7 = true then u.withRxq [] else u) .ok [])

/-- WR.TFC: `TFCS` going 0 to 1 empties `txq` (R122). -/
def execWrTfc (v : Byte) (s : State) : Host.Outcome State Fault Refusal :=
  let u := s.sio.withTfc (.ofByte (maskedStore .tfc s.sio.tfc.toByte v))
  .next (s.complete (if s.sio.tfc.tfcs = false ∧ v.getLsbD 7 = true then u.withTxq [] else u) .ok [])

/-- WR.RST, rejected for every value (R124). -/
def execWrRst (_v : Byte) (s : State) : Host.Outcome State Fault Refusal :=
  .next (s.reject (.readOnlyWrite (regSel .rst)))

/-- WR.TST, rejected for every value (R126). -/
def execWrTst (_v : Byte) (s : State) : Host.Outcome State Fault Refusal :=
  .next (s.reject (.readOnlyWrite (regSel .tst)))

/-- WR.FCNF (R128). -/
def execWrFcnf (v : Byte) (s : State) : Host.Outcome State Fault Refusal :=
  .next (s.complete (s.sio.withFcnf (.ofByte (maskedStore .fcnf s.sio.fcnf.toByte v))) .ok [])

end Sys2Proof.Machine
end

