-- ==== Sys2Proof/Machine/Dispatch.lean ====
section
/-! DEFINITION. The meaning of every operation, one arm per constructor of Instr. -/

namespace Sys2Proof.Machine

/-- One operation of the block, atomic (20_memory.md R55). -/
def exec (i : Instr) (s : State) : Host.Outcome State Fault Refusal :=
  match i with
  | .rdEn => Sys2Proof.Machine.execRdEn s
  | .wrEn v => Sys2Proof.Machine.execWrEn v s
  | .rdBuf => Sys2Proof.Machine.execRdBuf s
  | .wrBuf v => Sys2Proof.Machine.execWrBuf v s
  | .rdCr => Sys2Proof.Machine.execRdCr s
  | .wrCr v => Sys2Proof.Machine.execWrCr v s
  | .rdMod0 => Sys2Proof.Machine.execRdMod0 s
  | .wrMod0 v => Sys2Proof.Machine.execWrMod0 v s
  | .rdBrcr => Sys2Proof.Machine.execRdBrcr s
  | .wrBrcr v => Sys2Proof.Machine.execWrBrcr v s
  | .rdBradd => Sys2Proof.Machine.execRdBradd s
  | .wrBradd v => Sys2Proof.Machine.execWrBradd v s
  | .rdMod1 => Sys2Proof.Machine.execRdMod1 s
  | .wrMod1 v => Sys2Proof.Machine.execWrMod1 v s
  | .rdMod2 => Sys2Proof.Machine.execRdMod2 s
  | .wrMod2 v => Sys2Proof.Machine.execWrMod2 v s
  | .rdRfc => Sys2Proof.Machine.execRdRfc s
  | .wrRfc v => Sys2Proof.Machine.execWrRfc v s
  | .rdTfc => Sys2Proof.Machine.execRdTfc s
  | .wrTfc v => Sys2Proof.Machine.execWrTfc v s
  | .rdRst => Sys2Proof.Machine.execRdRst s
  | .wrRst v => Sys2Proof.Machine.execWrRst v s
  | .rdTst => Sys2Proof.Machine.execRdTst s
  | .wrTst v => Sys2Proof.Machine.execWrTst v s
  | .rdFcnf => Sys2Proof.Machine.execRdFcnf s
  | .wrFcnf v => Sys2Proof.Machine.execWrFcnf v s
  | .send v => Sys2Proof.Machine.execSend v s
  | .receive v => Sys2Proof.Machine.execReceive v s
  | .tick => Sys2Proof.Machine.execTick s
  | .freq => Sys2Proof.Machine.execFreq s
  | .decLookup w => Sys2Proof.Machine.execDecLookup w s
  | .decBuild cfg => Sys2Proof.Machine.execDecBuild cfg s
  | .unknown w => Sys2Proof.Machine.execUnknown w s

end Sys2Proof.Machine
end

