-- ==== Sys2Proof/Machine/Step.lean ====
section
/-! DEFINITION. One step of the block: the oldest request presented is performed or rejected. -/

namespace Sys2Proof.Machine

/-- A request is performed: the operation it asks for, or its rejection before any state changes (30_encoding.md R68,
60_exceptions.md R176). -/
def perform (q : Request) (s : State) : Host.Outcome State Fault Refusal :=
  match q.decode with
  | .ok i => exec i s
  | .error e => .next (s.reject e)

/-- The next operation of the total order of 20_memory.md R57. With none presented the block keeps all its state and
its output port is idle (log 2). -/
def step (s : State) : Host.Outcome State Fault Refusal :=
  match s.pending with
  | [] => .next (s.withOut .idle)
  | q :: rest => perform q (s.withPending rest)

/-- The request whose bits are `w` is presented next: it is put before those already waiting, and nothing else
changes. Log 2. -/
def State.withFetchWord (s : State) (nbits w : Nat) : State :=
  s.withPending (tableRequest nbits w :: s.pending)

end Sys2Proof.Machine
end

