-- ==== Sys2Proof/Machine/Script.lean ====
section
/-! DEFINITION. The script lines of 30_encoding.md R84 and the transactions they stand for. -/

namespace Sys2Proof.Machine

/-- One line of a script (R84); `swReset` and `ticks` are the pseudo-lines. -/
inductive Line where
  | rd (r : Reg)
  | wr (r : Reg) (v : Byte)
  | send (v : Byte)
  | recv (v : Byte)
  | tick
  | freq
  | lookup (w : Word)
  | build (cfg : Word)
  | swReset
  | ticks (n : Nat)
  deriving DecidableEq, Repr

/-- The transaction `RD <reg>` (R84). -/
def rdTxn (r : Reg) : Txn := mkTxn (BitVec.ofNat 8 (regSel r)) 0

/-- The transaction `WR <reg>, <imm8>` (R84). -/
def wrTxn (r : Reg) (v : Byte) : Txn := mkTxn (BitVec.ofNat 8 (0x10 + regSel r)) (data8 v)

/-- The transactions a line stands for, in order (R84). -/
def lineTxns : Line → List Txn
  | .rd r => [rdTxn r]
  | .wr r v => [wrTxn r v]
  | .send v => [mkTxn 0x40 (data8 v)]
  | .recv v => [mkTxn 0x41 (data8 v)]
  | .tick => [mkTxn 0x42 0]
  | .freq => [mkTxn 0x43 0]
  | .lookup w => [mkTxn 0x80 w]
  | .build cfg => [mkTxn 0x81 cfg]
  | .swReset => [wrTxn .mod2 0x02, wrTxn .mod2 0x01]
  | .ticks n => List.replicate n (mkTxn 0x42 0)

/-- The requests a script presents. -/
def scriptRequests (ls : List Line) : List Request := (ls.map lineTxns).flatten.map .txn

end Sys2Proof.Machine
end

