-- ==== Sys2Proof/WellFormed.lean ====
section
/-! DEFINITION. What makes a pattern, the ROM content, the parameters and a request well formed. Every operand of
`Instr` is exactly as wide as its field (30_encoding.md R66), so an instruction has nothing left to check. -/

namespace Sys2Proof

/-- A pattern is well formed when no 1 bit of the encoding stands in a free position (30_encoding.md R61). -/
def Descriptor.wf (d : Descriptor) : Bool := d.encoding &&& ~~~d.mask == 0#16

/-- Hypothesis H-WF of 92_eei_decisions.md D40: every pattern of `LAYERS` is well formed. No operation needs it. -/
def Layers.wf (L : Layers) : Bool := L.base.all Descriptor.wf && L.alt.all (·.all Descriptor.wf)

/-- A configuration mask selects only layers that exist: bits `NALT` to 15 are 0 (10_state.md R16). -/
def selectsExisting (nalt : Nat) (cfg : Word) : Bool := cfg >>> nalt == 0#16

/-- The bounds 00_scope.md R9 puts on the OPEN parameters. -/
def Params.wf (p : Params) : Bool :=
  decide (1 ≤ p.rxqCap) && decide (p.rxqCap ≤ 7) && decide (1 ≤ p.txqCap) && decide (p.txqCap ≤ 7)
    && p.rxThr.toList.all (fun t => decide (t ≤ p.rxqCap)) && decide (p.layers.nalt ≤ 16)
    && selectsExisting p.layers.nalt p.cfg0

/-- Every operation is well formed: its operands have exactly the widths of 30_encoding.md R66. -/
def Instr.wf (_ : Instr) : Bool := true

/-- A request the tag map or the register map gives an operation (30_encoding.md R67, 20_memory.md R50). -/
def Request.wf (q : Request) : Bool :=
  match q.decode with
  | .ok _ => true
  | .error _ => false

end Sys2Proof
end

