-- ==== Sys2Proof/Safety.lean ====
section
/-! DEFINITION. What counts as a good state and a safe run: the invariant of the block, the reading of a rejection as a
failed run (60_exceptions.md R165), the hypotheses on the ROM content, and the hazards software must respect
(70_reset_and_hazards.md). -/

namespace Sys2Proof.Machine

/-- The invariant every step keeps. `rom` and `cfg`: 10_state.md R16, R17. `rxq`: 10_state.md R36, R42 (iii). `ferr`: no rule
sets it (60_exceptions.md R170). `txrun`: no rule sets it (10_state.md R28). `params`: the bounds of 00_scope.md R9. -/
structure Inv (s : State) : Prop where
  params : s.params.wf = true
  rom : s.rom = romBuild s.params.layers s.cfg
  cfg : s.cfg >>> s.params.layers.nalt = 0#16
  rxq : s.sio.rxq.length ≤ s.params.rxqCap
  ferr : s.sio.cr.ferr = false
  txrun : s.sio.mod2.txrun = false

/-- The rejection the last operation's caller received, if it was rejected. -/
def State.rejection (s : State) : Option Rejection :=
  match s.out with
  | .rejected e => some e
  | _ => none

/-- A step under the reading of 60_exceptions.md R165 and 93_implementation_defined.md U1, U13, U14: a rejection fails
the run. Log 4. -/
def strictStep (s : State) : Host.Outcome State Fault Refusal :=
  match step s with
  | .next t =>
    match t.rejection with
    | some e => .fault (.rejected e)
    | none => .next t
  | .fault r => .fault r
  | .refused r => .refused r

/-- None of the next `n` steps is rejected. -/
def cleanRun : Nat → State → Bool
  | 0, _ => true
  | n + 1, s =>
    match strictStep s with
    | .next t => cleanRun n t
    | _ => false

/-- The fields execution reads, which an optional descriptor is expected to share with the canonical descriptor it
covers (40_decoder.md R96). -/
def sameExecution (d c : Descriptor) : Bool :=
  d.format == c.format && d.extraWordsX == c.extraWordsX && d.extraWordsY == c.extraWordsY && d.action == c.action
    && d.flowClass == c.flowClass && d.isConditional == c.isConditional && d.hasDelaySlot == c.hasDelaySlot

/-- Hypothesis H-ALT of 92_eei_decisions.md D40: an optional descriptor agrees with every canonical descriptor it
covers, wherever both claim a word, in all execution fields. No operation needs it. -/
def AltAgrees (L : Layers) : Prop :=
  ∀ l ∈ L.alt, ∀ d ∈ l, ∀ c ∈ L.base, ∀ w : Word, claims d w = true → claims c w = true → sameExecution d c = true

/-- The transmit slot may be written without losing a value (70_reset_and_hazards.md R198). -/
def txSlotFree (u : Sio) : Bool := u.mod2.tbe

/-- The transmit queue may be appended to within its nominal size (70_reset_and_hazards.md R199). -/
def txqFree (p : Params) (u : Sio) : Bool := decide (u.txq.length < p.txqCap)

/-- `FCNF.CNFG` may be switched with nothing left behind (70_reset_and_hazards.md R202). -/
def pathsEmpty (u : Sio) : Bool := u.mod2.tbe && !u.mod2.rbf && u.txq.isEmpty && u.rxq.isEmpty

/-- Data waits and no tick will come (70_reset_and_hazards.md R200). -/
def stalled (u : Sio) : Bool := !u.scheduled && (if u.fcnf.cnfg then !u.txq.isEmpty else !u.mod2.tbe)

end Sys2Proof.Machine
end

