-- ==== Sys2Proof/Certificates/Slice0/Obligations.lean ====
section
/-! DEFINITION. The statements for the provers. Each is a property of the machine, not of a program. -/

namespace Sys2Proof.Machine

/-- Every transaction with this tag selects `i`, whatever its data (30_encoding.md R66, R67). -/
def TagSelects (tag : BitVec 8) (i : Instr) : Prop := ∀ d : Word, decodeTxn (mkTxn tag d) = .ok i

/-- Every transaction with this tag selects the operation of its low data byte (30_encoding.md R66, R67). -/
def TagSelectsByte (tag : BitVec 8) (f : Byte → Instr) : Prop :=
  ∀ d : Word, decodeTxn (mkTxn tag d) = .ok (f (d.extractLsb' 0 8))

/-- A tag 30_encoding.md R67 gives an operation. -/
def ListedTag (n : Nat) : Prop :=
  n ≤ 0x0C ∨ (0x10 ≤ n ∧ n ≤ 0x1C) ∨ (0x40 ≤ n ∧ n ≤ 0x43) ∨ n = 0x80 ∨ n = 0x81

/-- One of the six register-bus tags with `sel` 13 to 15 (30_encoding.md R68). -/
def UnmappedTag (n : Nat) : Prop := (0x0D ≤ n ∧ n ≤ 0x0F) ∨ (0x1D ≤ n ∧ n ≤ 0x1F)

/-- The baud configuration is invalid: fine-adjust with `K` = 0, or `N` = 1, or `N` = 16 (43_timing.md R156). -/
def BaudInvalid (u : Sio) : Prop := u.brcr.adde = true ∧ (u.bradd.k = 0#4 ∨ u.brcr.s = 1#4 ∨ u.brcr.s = 0#4)

/-- A SEND would newly register the SIO (42_datapath.md R139). -/
def WouldRegister (u : Sio) : Prop := u.mod1.txe = true ∧ u.scheduled = false

/-- The SIO after an accepted SEND of `v`: the path `CNFG` selects holds it, and with `TXE` = 1 the SIO is registered
(42_datapath.md R137 to R139). -/
def sentSio (u : Sio) (v : Byte) : Sio :=
  (if u.fcnf.cnfg = true then u.withTxq (u.txq ++ [v])
    else (u.withTxSlot v).withMod2 { u.mod2 with tbe := false }).withScheduled (u.scheduled || u.mod1.txe)

/-- A write of `MOD2` that completes the two-write soft-reset sequence (41_register_access.md R112). -/
def CompletesSoftReset (i : Instr) (u : Sio) : Prop :=
  u.mod2.swrst = 2#2 ∧ ∃ v : Byte, i = .wrMod2 v ∧ v.extractLsb' 0 2 = 1#2

/-- Serial mode `m` stored in place of the one the SIO holds. -/
def withSm (s : State) (m : BitVec 2) : State := s.withSio (s.sio.withMod0 { s.sio.mod0 with sm := m })

/-- The symbols emitted on the transmit line in the next `n` steps, in order (42_datapath.md R152). -/
def lineOutput : Nat → State → List Byte
  | 0, _ => []
  | n + 1, s =>
    match step s with
    | .next t =>
      (match t.out with
        | .done _ es => es.filterMap fun e => match e with | .txOut v => some v | _ => none
        | _ => []) ++ lineOutput n t
    | _ => []

/-- `n` steps lead from `s` to `t`, each answering a next state. -/
def stepsTo : Nat → State → State → Prop
  | 0, s, t => s = t
  | n + 1, s, t => ∃ m : State, step s = .next m ∧ stepsTo n m t

end Sys2Proof.Machine

open Sys2Proof Sys2Proof.Machine

/-- Decoding the encoding of any operation gives it back, with every operand value. The encoding is the
spec's own: 30_encoding.md R66, R67 (D2), R84 (D50). -/
def Obligations.DecodeEncode : Prop := ∀ i : Instr, i.wf = true → (encode i).decode = .ok i

/-- A transaction that decodes carries the tag of the operation it decodes to, so no operation has two tags.
The tag map is the spec's own: 30_encoding.md R67 (D2). -/
def Obligations.EncodingKeepsTag : Prop :=
  ∀ (w : Txn) (i : Instr), decodeTxn w = .ok i →
    ∃ d : Word, encode i = .txn (mkTxn (txnTag w) d) ∧ decodeTxn (mkTxn (txnTag w) d) = .ok i

/-- Ignored bits have no effect: the tag alone decides an operation with no operand, the tag and `data[7:0]` every
operation outside the decoder port. The spec's own: 30_encoding.md R66, R67 (D2). -/
def Obligations.IgnoredBitsHaveNoEffect : Prop :=
  ∀ w w' : Txn, txnTag w = txnTag w' →
    ((txnTag w).toNat < 0x10 ∨ txnTag w = 0x42#8 ∨ txnTag w = 0x43#8 → decodeTxn w = decodeTxn w') ∧
    ((txnTag w).toNat < 0x80 → w.extractLsb' 0 8 = w'.extractLsb' 0 8 → decodeTxn w = decodeTxn w')

/-- A listed tag selects an operation; the six unmapped selects and every other tag are rejected, the state being left
as it was. The spec's own: 30_encoding.md R68 (D33). -/
def Obligations.UnlistedTagRejected : Prop :=
  ∀ (w : Txn) (s : State) (rest : List Request), s.pending = .txn w :: rest →
    (ListedTag (txnTag w).toNat → ∃ i, decodeTxn w = .ok i) ∧
    (UnmappedTag (txnTag w).toNat →
      step s = .next ((s.withPending rest).withOut (.rejected (.unmappedRegister ((txnTag w).toNat % 16))))) ∧
    (¬ ListedTag (txnTag w).toNat → ¬ UnmappedTag (txnTag w).toNat →
      step s = .next ((s.withPending rest).withOut (.rejected (.reservedTransaction (txnTag w)))))

/-- A one-byte access at offset `4·i` is the register operation with all its effects; any other offset or size is
`UnmappedRegister`. The spec's own: 20_memory.md R50 (D4, D43); the info given is the offset, the model's choice, log
12. -/
def Obligations.BusAccessIsRegisterOperation : Prop :=
  ∀ (s : State) (rest : List Request) (v : Byte),
    (∀ r : Reg,
      (s.pending = .memRead (4 * regSel r) 1 :: rest → step s = exec (readInstr r) (s.withPending rest)) ∧
      (s.pending = .memWrite (4 * regSel r) 1 v :: rest → step s = exec (writeInstr v r) (s.withPending rest))) ∧
    (∀ addr n : Nat, (n ≠ 1 ∨ addr % 4 ≠ 0 ∨ 48 < addr) →
      (s.pending = .memRead addr n :: rest ∨ s.pending = .memWrite addr n v :: rest) →
      step s = .next ((s.withPending rest).withOut (.rejected (.unmappedRegister addr))))

/-- Words of 95_test_vectors.md decode to the operations they stand for. A sanity statement. -/
def Obligations.SpecWordsDecode : Prop :=
  decodeTableWord 24 0x000000 = some .rdEn ∧ decodeTableWord 24 0x160050 = some (.wrMod1 0x50) ∧
  decodeTableWord 24 0x07ABCD = some .rdMod2 ∧ decodeTableWord 24 0x10FF01 = some (.wrEn 0x01) ∧
  decodeTableWord 24 0x410041 = some (.receive 0x41) ∧ decodeTableWord 24 0x420000 = some .tick ∧
  decodeTableWord 24 0x801785 = some (.decLookup 0x1785) ∧ decodeTableWord 24 0x810003 = some (.decBuild 0x0003) ∧
  decodeTableWord 24 0x0D0000 = none ∧ decodeTableWord 24 0x440000 = none

/-- Every script line presents the operations it names, in order. The spec's own: 30_encoding.md R84 (D50). -/
def Obligations.ScriptLinesPresentOperations : Prop :=
  ∀ (r : Reg) (v : Byte) (w : Word) (n : Nat),
    (scriptRequests [.rd r]).map Request.decode = [.ok (readInstr r)] ∧
    (scriptRequests [.wr r v]).map Request.decode = [.ok (writeInstr v r)] ∧
    (scriptRequests [.send v, .recv v, .tick, .freq, .lookup w, .build w]).map Request.decode =
      [.ok (.send v), .ok (.receive v), .ok .tick, .ok .freq, .ok (.decLookup w), .ok (.decBuild w)] ∧
    (scriptRequests [.swReset]).map Request.decode = [.ok (.wrMod2 0x02), .ok (.wrMod2 0x01)] ∧
    (scriptRequests [.ticks n]).map Request.decode = List.replicate n (.ok .tick)

/-- A step runs the decoded operation on the state without the request. That requests wait in a list is the model's
choice, log 1. -/
def Obligations.StepRunsDecoded : Prop :=
  ∀ (s : State) (q : Request) (rest : List Request) (i : Instr),
    s.pending = q :: rest → q.decode = .ok i → i.wf = true → step s = exec i (s.withPending rest)

/-- With nothing presented a step keeps everything but the output port, which falls idle; the operation placed by
`withFetchWord` is the one the next step runs. The model's own choice, log 2. -/
def Obligations.IdleStepsAndPlacedWords : Prop :=
  ∀ s : State,
    (s.pending = [] → step s = .next (s.withOut .idle)) ∧
    (∀ (nbits w : Nat) (i : Instr), decodeTableWord nbits w = some i → step (s.withFetchWord nbits w) = exec i s)

/-- Every step keeps the invariant: the ROM is the table DEC.BUILD computes from `CFG`, `CFG` selects layers that
exist, the receive queue is within its capacity, `FERR` and `TXRUN` are 0. The invariant gathers
10_state.md R16 (D39), R17 (derived there), R28, R36 and 60_exceptions.md R170 (D21). -/
def Obligations.StepKeepsInvariant : Prop := ∀ s t : State, Inv s → step s = .next t → Inv t

/-- The machine after reset meets the invariant. The spec's inference: 10_state.md R17. -/
def Obligations.ResetMeetsInvariant : Prop := Inv State.reset

/-- What reset leaves: the table of `CFG0`, every register field 0 but `TBE`, both queues empty, nothing scheduled, no
event. 70_reset_and_hazards.md R187 and 10_state.md R45, which mark most of the zeros as the spec's own (D8). -/
def Obligations.ResetValues : Prop :=
  exec (.decBuild State.reset.params.cfg0) State.reset = .next (State.reset.withOut (.done .ok [])) ∧
  State.reset.cfg = State.reset.params.cfg0 ∧
  (∀ r : Reg, regView State.reset.sio r = if r = .buf then none else if r = .mod2 then some 0x80 else some 0x00) ∧
  State.reset.sio.txq = [] ∧ State.reset.sio.rxq = [] ∧ State.reset.sio.scheduled = false ∧
  State.reset.out = .idle

/-- RD.EN, RD.MOD0, RD.MOD1 and RD.MOD2 return the fields at their positions and change nothing:
41_register_access.md R106, R108, R110, R113. -/
def Obligations.ReadsEnableAndModes : Prop :=
  TagSelects 0x00 .rdEn ∧ TagSelects 0x03 .rdMod0 ∧ TagSelects 0x06 .rdMod1 ∧ TagSelects 0x07 .rdMod2 ∧
  ∀ s : State,
    (∃ b : Byte, exec .rdEn s = .next (s.withOut (.done (.value b) [])) ∧
      b.getLsbD 0 = s.sio.en.sioe ∧ b.extractLsb' 1 7 = 0#7) ∧
    (∃ b : Byte, exec .rdMod0 s = .next (s.withOut (.done (.value b) [])) ∧
      b.extractLsb' 6 2 = 0#2 ∧ b.getLsbD 5 = s.sio.mod0.rxe ∧ b.getLsbD 4 = false ∧
      b.extractLsb' 2 2 = s.sio.mod0.sm ∧ b.extractLsb' 0 2 = 0#2) ∧
    (∃ b : Byte, exec .rdMod1 s = .next (s.withOut (.done (.value b) [])) ∧
      b.getLsbD 7 = false ∧ b.extractLsb' 5 2 = s.sio.mod1.fdpx ∧ b.getLsbD 4 = s.sio.mod1.txe ∧
      b.extractLsb' 1 3 = s.sio.mod1.sint ∧ b.getLsbD 0 = false) ∧
    (∃ b : Byte, exec .rdMod2 s = .next (s.withOut (.done (.value b) [])) ∧
      b.getLsbD 7 = s.sio.mod2.tbe ∧ b.getLsbD 6 = s.sio.mod2.rbf ∧ b.getLsbD 5 = s.sio.mod2.txrun ∧
      b.extractLsb' 2 3 = 0#3 ∧ b.extractLsb' 0 2 = s.sio.mod2.swrst)

/-- RD.BRCR, RD.BRADD, RD.RFC, RD.TFC and RD.FCNF return the fields at their positions and change nothing:
41_register_access.md R115, R117, R119, R121, R127. -/
def Obligations.ReadsBaudAndFifoRegisters : Prop :=
  TagSelects 0x04 .rdBrcr ∧ TagSelects 0x05 .rdBradd ∧ TagSelects 0x08 .rdRfc ∧ TagSelects 0x09 .rdTfc ∧
  TagSelects 0x0C .rdFcnf ∧
  ∀ s : State,
    (∃ b : Byte, exec .rdBrcr s = .next (s.withOut (.done (.value b) [])) ∧
      b.getLsbD 7 = false ∧ b.getLsbD 6 = s.sio.brcr.adde ∧ b.extractLsb' 4 2 = s.sio.brcr.ck ∧
      b.extractLsb' 0 4 = s.sio.brcr.s) ∧
    (∃ b : Byte, exec .rdBradd s = .next (s.withOut (.done (.value b) [])) ∧
      b.extractLsb' 4 4 = 0#4 ∧ b.extractLsb' 0 4 = s.sio.bradd.k) ∧
    (∃ b : Byte, exec .rdRfc s = .next (s.withOut (.done (.value b) [])) ∧
      b.getLsbD 7 = s.sio.rfc.rfcs ∧ b.getLsbD 6 = s.sio.rfc.rfis ∧ b.extractLsb' 2 4 = 0#4 ∧
      b.extractLsb' 0 2 = s.sio.rfc.ril) ∧
    (∃ b : Byte, exec .rdTfc s = .next (s.withOut (.done (.value b) [])) ∧
      b.getLsbD 7 = s.sio.tfc.tfcs ∧ b.getLsbD 6 = s.sio.tfc.tfis ∧ b.extractLsb' 2 4 = 0#4 ∧
      b.extractLsb' 0 2 = s.sio.tfc.til) ∧
    (∃ b : Byte, exec .rdFcnf s = .next (s.withOut (.done (.value b) [])) ∧
      b.extractLsb' 5 3 = 0#3 ∧ b.getLsbD 4 = s.sio.fcnf.rfst ∧ b.getLsbD 3 = false ∧
      b.getLsbD 2 = s.sio.fcnf.rfie ∧ b.getLsbD 1 = s.sio.fcnf.rxtxcnt ∧ b.getLsbD 0 = s.sio.fcnf.cnfg)

/-- RD.CR returns the flags and `IOC`, clears the three sticky flags and changes nothing else. That
this register is the read-then-clear one is the spec's own: 41_register_access.md R104 (D18). -/
def Obligations.ReadCrClearsStickyFlags : Prop :=
  TagSelects 0x02 .rdCr ∧
  ∀ s : State, ∃ b : Byte,
    exec .rdCr s = .next ((s.withSio (s.sio.withCr ⟨false, false, false, s.sio.cr.ioc⟩)).withOut
      (.done (.value b) [])) ∧
    b.extractLsb' 5 3 = 0#3 ∧ b.getLsbD 4 = s.sio.cr.oerr ∧ b.getLsbD 3 = s.sio.cr.perr ∧
    b.getLsbD 2 = s.sio.cr.ferr ∧ b.getLsbD 1 = false ∧ b.getLsbD 0 = s.sio.cr.ioc

/-- RD.RST returns `ROR` and min(length, 7), clears `ROR` and changes nothing else; RD.TST returns min(length, 7) and
changes nothing. That the read clears `ROR`, and what the level fields hold, is the spec's own: 41_register_access.md
R123 (D18, D19), R125 (D19). -/
def Obligations.ReadsStatusRegisters : Prop :=
  TagSelects 0x0A .rdRst ∧ TagSelects 0x0B .rdTst ∧
  ∀ s : State,
    (∃ b : Byte, exec .rdRst s = .next ((s.withSio (s.sio.withRst ⟨false⟩)).withOut (.done (.value b) [])) ∧
      b.getLsbD 7 = s.sio.rst.ror ∧ b.extractLsb' 3 4 = 0#4 ∧ (b.extractLsb' 0 3).toNat = min s.sio.rxq.length 7) ∧
    (∃ b : Byte, exec .rdTst s = .next (s.withOut (.done (.value b) [])) ∧ b.toNat = min s.sio.txq.length 7)

/-- RD.BUF delivers the slot or the queue's head on the path `CNFG` selects, or no data, and changes nothing else.
The spec's own: 41_register_access.md R102 (D9). -/
def Obligations.ReadBufDelivers : Prop :=
  TagSelects 0x01 .rdBuf ∧
  ∀ s : State,
    (s.sio.fcnf.cnfg = false → s.sio.mod2.rbf = true →
      exec .rdBuf s = .next ((s.withSio (s.sio.withMod2 { s.sio.mod2 with rbf := false })).withOut
        (.done (.data s.sio.rxSlot) []))) ∧
    (s.sio.fcnf.cnfg = false → s.sio.mod2.rbf = false →
      exec .rdBuf s = .next (s.withOut (.done .noData []))) ∧
    (∀ (v : Byte) (q : List Byte), s.sio.fcnf.cnfg = true → s.sio.rxq = v :: q →
      exec .rdBuf s = .next ((s.withSio (s.sio.withRxq q)).withOut (.done (.data v) []))) ∧
    (s.sio.fcnf.cnfg = true → s.sio.rxq = [] → exec .rdBuf s = .next (s.withOut (.done .noData [])))

/-- WR.EN, WR.CR and WR.FCNF store their fields and change nothing else, the sticky flags included, and never reject:
41_register_access.md R107, R105, R128. -/
def Obligations.WritesPlainFields : Prop :=
  TagSelectsByte 0x10 .wrEn ∧ TagSelectsByte 0x12 .wrCr ∧ TagSelectsByte 0x1C .wrFcnf ∧
  ∀ (v : Byte) (s : State),
    exec (.wrEn v) s = .next ((s.withSio (s.sio.withEn ⟨v.getLsbD 0⟩)).withOut (.done .ok [])) ∧
    exec (.wrCr v) s = .next ((s.withSio (s.sio.withCr { s.sio.cr with ioc := v.getLsbD 0 })).withOut (.done .ok [])) ∧
    exec (.wrFcnf v) s =
      .next ((s.withSio (s.sio.withFcnf ⟨v.getLsbD 4, v.getLsbD 2, v.getLsbD 1, v.getLsbD 0⟩)).withOut (.done .ok []))

/-- WR.BRCR and WR.BRADD store their fields and change nothing else. That they never reject, even a configuration that
is invalid, is the spec's own: 41_register_access.md R116, R118 (D25). -/
def Obligations.WritesBaudRegisters : Prop :=
  TagSelectsByte 0x14 .wrBrcr ∧ TagSelectsByte 0x15 .wrBradd ∧
  ∀ (v : Byte) (s : State),
    exec (.wrBrcr v) s =
      .next ((s.withSio (s.sio.withBrcr ⟨v.getLsbD 6, v.extractLsb' 4 2, v.extractLsb' 0 4⟩)).withOut (.done .ok [])) ∧
    exec (.wrBradd v) s = .next ((s.withSio (s.sio.withBradd ⟨v.extractLsb' 0 4⟩)).withOut (.done .ok []))

/-- WR.MOD0 and WR.MOD1 store their fields and change nothing else; a serial mode other than 0 is logged; setting `TXE`
registers nothing. The place of the warning (D34) and that no write registers (D12) are the spec's own:
41_register_access.md R109, R111. -/
def Obligations.WritesModes : Prop :=
  TagSelectsByte 0x13 .wrMod0 ∧ TagSelectsByte 0x16 .wrMod1 ∧
  ∀ (v : Byte) (s : State),
    (v.extractLsb' 2 2 = 0#2 → exec (.wrMod0 v) s =
      .next ((s.withSio (s.sio.withMod0 ⟨v.getLsbD 5, 0#2⟩)).withOut (.done .ok []))) ∧
    (v.extractLsb' 2 2 ≠ 0#2 → exec (.wrMod0 v) s =
      .next ((s.withSio (s.sio.withMod0 ⟨v.getLsbD 5, v.extractLsb' 2 2⟩)).withOut
        (.done .ok [.log .uartModeUnimplemented]))) ∧
    exec (.wrMod1 v) s =
      .next ((s.withSio (s.sio.withMod1 ⟨v.extractLsb' 5 2, v.getLsbD 4, v.extractLsb' 1 3⟩)).withOut (.done .ok []))

/-- WR.MOD2 stores `SWRST`; 0b01 over a stored 0b10 also clears the eight bits of soft reset; nothing else changes.
How the sequence is detected is the spec's own: 41_register_access.md R112 (D17), R114. `TBE` = 0 after it is log 17. -/
def Obligations.WriteMod2SoftResets : Prop :=
  TagSelectsByte 0x17 .wrMod2 ∧
  ∀ (v : Byte) (s : State),
    (¬ (s.sio.mod2.swrst = 2#2 ∧ v.extractLsb' 0 2 = 1#2) → exec (.wrMod2 v) s =
      .next ((s.withSio (s.sio.withMod2 { s.sio.mod2 with swrst := v.extractLsb' 0 2 })).withOut (.done .ok []))) ∧
    (s.sio.mod2.swrst = 2#2 → v.extractLsb' 0 2 = 1#2 → exec (.wrMod2 v) s =
      .next ((s.withSio ((((s.sio.withMod0 { s.sio.mod0 with rxe := false }).withMod1
        { s.sio.mod1 with txe := false }).withMod2 ⟨false, false, false, 1#2⟩).withCr
        ⟨false, false, false, s.sio.cr.ioc⟩)).withOut (.done .ok [])))

/-- WR.RFC and WR.TFC store their fields; the clear bit going 0 to 1 empties the queue; nothing else changes.
Which transition clears is the spec's own: 41_register_access.md R120, R122 (D16). -/
def Obligations.WritesFifoControl : Prop :=
  TagSelectsByte 0x18 .wrRfc ∧ TagSelectsByte 0x19 .wrTfc ∧
  ∀ (v : Byte) (s : State),
    exec (.wrRfc v) s =
      .next ((s.withSio ((s.sio.withRfc ⟨v.getLsbD 7, v.getLsbD 6, v.extractLsb' 0 2⟩).withRxq
        (if s.sio.rfc.rfcs = false ∧ v.getLsbD 7 = true then [] else s.sio.rxq))).withOut (.done .ok [])) ∧
    exec (.wrTfc v) s =
      .next ((s.withSio ((s.sio.withTfc ⟨v.getLsbD 7, v.getLsbD 6, v.extractLsb' 0 2⟩).withTxq
        (if s.sio.tfc.tfcs = false ∧ v.getLsbD 7 = true then [] else s.sio.txq))).withOut (.done .ok []))

/-- WR.RST and WR.TST are rejected with `ReadOnlyWrite` for every value and change no state:
41_register_access.md R124, R126. -/
def Obligations.WritesToStatusRejected : Prop :=
  TagSelectsByte 0x1A .wrRst ∧ TagSelectsByte 0x1B .wrTst ∧
  ∀ (v : Byte) (s : State),
    exec (.wrRst v) s = .next (s.withOut (.rejected (.readOnlyWrite 10))) ∧
    exec (.wrTst v) s = .next (s.withOut (.rejected (.readOnlyWrite 11)))

/-- WR.BUF: a preload of `txSlot` and nothing else while disabled; SEND with all its effects while enabled:
41_register_access.md R103, 42_datapath.md R135. The spec's own: the reading of the preload (D10), that `TXE` alone gates
transmission (D11), that only a SEND registers (D12, log 18), the place of the baud rejection (D25). The append at every
length of the queue is log 15 (D23, C1), the result `ok` of the bus log 12. -/
def Obligations.WriteBufSendsOrPreloads : Prop :=
  TagSelectsByte 0x11 .wrBuf ∧
  ∀ (v : Byte) (s : State),
    (s.sio.en.sioe = false → exec (.wrBuf v) s = .next ((s.withSio (s.sio.withTxSlot v)).withOut (.done .ok []))) ∧
    (s.sio.en.sioe = true → WouldRegister s.sio → BaudInvalid s.sio → exec (.wrBuf v) s =
      .next (s.withOut (.rejected (.configError (.baudRate true s.sio.brcr.s s.sio.bradd.k))))) ∧
    (s.sio.en.sioe = true → WouldRegister s.sio → ¬ BaudInvalid s.sio →
      exec (.wrBuf v) s = .next ((s.withSio (sentSio s.sio v)).withOut (.done .ok [.sched]))) ∧
    (s.sio.en.sioe = true → ¬ WouldRegister s.sio →
      exec (.wrBuf v) s = .next ((s.withSio (sentSio s.sio v)).withOut (.done .ok [])))

/-- The masked store: after a write, a register with a non-zero write mask reads `(x & ~WMASK) | (v & WMASK)`
(41_register_access.md R100), except after the write that completes a soft reset, whose side effect is in the same step:
there `MOD2` reads that value with its three status bits 7 to 5 cleared (R112, R114). Which write completes it is the
spec's own (D17); that `TBE` is among the bits cleared is log 17. -/
def Obligations.WriteIsMaskedStore : Prop :=
  ∀ (r : Reg) (v x : Byte) (s : State), r ≠ .buf → r ≠ .rst → r ≠ .tst → regView s.sio r = some x →
    ∃ (t : State) (es : List Event), exec (writeInstr v r) s = .next t ∧ t.out = .done .ok es ∧
      (¬ CompletesSoftReset (writeInstr v r) s.sio →
        regView t.sio r = some ((x &&& ~~~wmask r) ||| (v &&& wmask r))) ∧
      (CompletesSoftReset (writeInstr v r) s.sio →
        regView t.sio r = some (((x &&& ~~~wmask r) ||| (v &&& wmask r)) &&& 0x1F))

/-- Writing all ones and reading back gives exactly the write mask, from any state whose bits outside it are 0; `MOD2`
from reset gives the mask with `TBE`. Derived in 41_register_access.md R129. -/
def Obligations.WriteOnesReadsMask : Prop :=
  (∀ (r : Reg) (x : Byte) (s : State), r ≠ .buf → r ≠ .rst → r ≠ .tst →
    regView s.sio r = some x → x &&& ~~~wmask r = 0#8 →
    ∃ t t' : State, exec (writeInstr 0xFF r) s = .next t ∧ exec (readInstr r) t = .next t' ∧
      t'.out = .done (.value (wmask r)) []) ∧
  (∃ t t' : State, exec (.wrMod2 0xFF) State.reset = .next t ∧ exec .rdMod2 t = .next t' ∧
    t'.out = .done (.value 0x83) [])

/-- SEND, in every state: 42_datapath.md R135 to R139. What gates it (D11), that it alone registers the SIO (D12, log
18) and the rejection of an invalid baud configuration before any change (D25) are the spec's own; the append without a
capacity check, at every length of the queue, is log 15 (D23, C1). -/
def Obligations.SendEffect : Prop :=
  TagSelectsByte 0x40 .send ∧
  ∀ (v : Byte) (s : State),
    (s.sio.en.sioe = false → exec (.send v) s = .next (s.withOut (.done .dropped [.log .sendDropped]))) ∧
    (s.sio.en.sioe = true → WouldRegister s.sio → BaudInvalid s.sio → exec (.send v) s =
      .next (s.withOut (.rejected (.configError (.baudRate true s.sio.brcr.s s.sio.bradd.k))))) ∧
    (s.sio.en.sioe = true → WouldRegister s.sio → ¬ BaudInvalid s.sio →
      exec (.send v) s = .next ((s.withSio (sentSio s.sio v)).withOut (.done .accepted [.sched]))) ∧
    (s.sio.en.sioe = true → ¬ WouldRegister s.sio →
      exec (.send v) s = .next ((s.withSio (sentSio s.sio v)).withOut (.done .accepted [])))

/-- RECEIVE drops, without any state change, unless the interface, the receive path and the duplex direction all
permit it. What each permits is the spec's own: 42_datapath.md R141 (D13). -/
def Obligations.ReceiveDropsUnlessPermitted : Prop :=
  TagSelectsByte 0x41 .receive ∧
  ∀ (v : Byte) (s : State),
    (s.sio.en.sioe = false ∨ s.sio.mod0.rxe = false ∨ s.sio.mod1.fdpx = 0#2 ∨ s.sio.mod1.fdpx = 2#2) →
    exec (.receive v) s = .next (s.withOut (.done .dropped [.log .recvDropped]))

/-- RECEIVE on the single-slot path: overrun keeps the old symbol; else the symbol is stored and the interrupt raised
if enabled. That `RFIE` enables it is the spec's own: 42_datapath.md R143 (D15). -/
def Obligations.ReceiveIntoSlot : Prop :=
  ∀ (v : Byte) (s : State), receivePermitted s.sio = true → s.sio.fcnf.cnfg = false →
    (s.sio.mod2.rbf = true → exec (.receive v) s =
      .next ((s.withSio (s.sio.withCr { s.sio.cr with oerr := true })).withOut (.done .overrun []))) ∧
    (s.sio.mod2.rbf = false → exec (.receive v) s =
      .next ((s.withSio ((s.sio.withRxSlot v).withMod2 { s.sio.mod2 with rbf := true })).withOut
        (.done .accepted (if s.sio.fcnf.rfie = true then [.irq s.params.rxIrq] else []))))

/-- RECEIVE on the FIFO path: overrun at the usable capacity leaves the queue; else append, and on a threshold hit the
interrupt if enabled and the auto-disable if configured: 42_datapath.md R142, R145. That `RFIE` enables the interrupt
on this path is the spec's own (D15, log 19). -/
def Obligations.ReceiveIntoFifo : Prop :=
  ∀ (v : Byte) (s : State) (cap n : Nat), receivePermitted s.sio = true → s.sio.fcnf.cnfg = true →
    cap = (if s.sio.fcnf.rfst = true then rxThreshold s.params s.sio else s.params.rxqCap) →
    n = s.sio.rxq.length + 1 →
    (cap < n → exec (.receive v) s =
      .next ((s.withSio ((s.sio.withCr { s.sio.cr with oerr := true }).withRst ⟨true⟩)).withOut (.done .overrun []))) ∧
    (n ≤ cap → rxHit s.params s.sio n = false →
      exec (.receive v) s = .next ((s.withSio (s.sio.withRxq (s.sio.rxq ++ [v]))).withOut (.done .accepted []))) ∧
    (n ≤ cap → rxHit s.params s.sio n = true → exec (.receive v) s =
      .next ((s.withSio ((s.sio.withRxq (s.sio.rxq ++ [v])).withMod0
        { s.sio.mod0 with rxe := s.sio.mod0.rxe && !s.sio.fcnf.rxtxcnt })).withOut
        (.done .accepted (if s.sio.fcnf.rfie = true then [.irq s.params.rxIrq] else []))))

/-- The threshold tests: equality with the comparison bit 0; with it 1, at or above on receive and at or below on
transmit. Which value of the bit means which is the spec's own: 42_datapath.md R144, R146 (D14). -/
def Obligations.ThresholdComparisons : Prop :=
  ∀ (p : Params) (u : Sio) (n : Nat),
    (u.rfc.rfis = false → (rxHit p u n = true ↔ n = p.rxThr.get (u.mod1.fdpx ++ u.rfc.ril).toFin)) ∧
    (u.rfc.rfis = true → (rxHit p u n = true ↔ p.rxThr.get (u.mod1.fdpx ++ u.rfc.ril).toFin ≤ n)) ∧
    (u.tfc.tfis = false → (txHit p u n = true ↔ n = p.txThr.get (u.mod1.fdpx ++ u.tfc.til).toFin)) ∧
    (u.tfc.tfis = true → (txHit p u n = true ↔ n ≤ p.txThr.get (u.mod1.fdpx ++ u.tfc.til).toFin))

/-- In exact mode with threshold 2, the second symbol into an empty queue raises exactly one receive interrupt and the
third raises none: the source's check in 42_datapath.md R144. That `RFIS` = 0 is the exact mode is the spec's own
(D14). -/
def Obligations.ExactThresholdInterruptsOnce : Prop :=
  ∀ (a b c : Byte) (s : State), receivePermitted s.sio = true → s.sio.fcnf = ⟨false, true, false, true⟩ →
    s.sio.rfc.rfis = false → rxThreshold s.params s.sio = 2 → 3 ≤ s.params.rxqCap → s.sio.rxq = [] →
    ∃ t₁ t₂ t₃ : State, exec (.receive a) s = .next t₁ ∧ exec (.receive b) t₁ = .next t₂ ∧
      exec (.receive c) t₂ = .next t₃ ∧ t₁.out = .done .accepted [] ∧
      t₂.out = .done .accepted [.irq s.params.rxIrq] ∧ t₃.out = .done .accepted [] ∧ t₃.sio.rxq = [a, b, c]

/-- TICK while not registered is rejected with its tag and changes no state. The spec's own: 42_datapath.md R147,
60_exceptions.md R169 (D45). -/
def Obligations.TickUnregisteredRejected : Prop :=
  TagSelects 0x42 .tick ∧
  ∀ s : State, s.sio.scheduled = false → exec .tick s = .next (s.withOut (.rejected (.reservedTransaction 0x42#8)))

/-- TICK on the single-slot path: the slot's value leaves and the unit goes on, or an underrun is logged, flagged when
internally clocked, and the unit is deregistered: 42_datapath.md R149. That no interrupt is raised is the spec's own
(D48). -/
def Obligations.TickSingleSlot : Prop :=
  ∀ s : State, s.sio.scheduled = true → s.sio.fcnf.cnfg = false →
    (s.sio.mod2.tbe = false → exec .tick s =
      .next ((s.withSio (s.sio.withMod2 { s.sio.mod2 with tbe := true })).withOut
        (.done .goOn [.txOut s.sio.txSlot]))) ∧
    (s.sio.mod2.tbe = true → exec .tick s =
      .next ((s.withSio ((s.sio.withCr { s.sio.cr with perr := s.sio.cr.perr || !s.sio.cr.ioc }).withScheduled
        false)).withOut (.done .finished [.log .txUnderrun])))

/-- TICK on the FIFO path. With the queue empty the underrun is logged, flagged only when the parameter says so and the
device is internally clocked, and the unit is deregistered. Else the head is popped; on a threshold hit the transmit
interrupt is raised before the symbol leaves, and with auto-disable `TXE` is cleared and the unit deregistered:
42_datapath.md R150 (D22), R151 (D15, D46), whose marked clauses are the spec's own. -/
def Obligations.TickFifo : Prop :=
  ∀ s : State, s.sio.scheduled = true → s.sio.fcnf.cnfg = true →
    (s.sio.txq = [] → exec .tick s =
      .next ((s.withSio ((s.sio.withCr { s.sio.cr with
        perr := s.sio.cr.perr || (s.params.fifoUnderrunSetsFlag && !s.sio.cr.ioc) }).withScheduled false)).withOut
        (.done .finished [.log .txFifoUnderrun]))) ∧
    ∀ (v : Byte) (q : List Byte), s.sio.txq = v :: q →
    (txHit s.params s.sio q.length = false →
      exec .tick s = .next ((s.withSio (s.sio.withTxq q)).withOut (.done .goOn [.txOut v]))) ∧
    (txHit s.params s.sio q.length = true → s.sio.fcnf.rxtxcnt = false →
      exec .tick s = .next ((s.withSio (s.sio.withTxq q)).withOut
        (.done .goOn [.irq s.params.txIrq, .txOut v]))) ∧
    (txHit s.params s.sio q.length = true → s.sio.fcnf.rxtxcnt = true →
      exec .tick s = .next ((s.withSio (((s.sio.withTxq q).withMod1 { s.sio.mod1 with txe := false }).withScheduled
        false)).withOut (.done .finished [.irq s.params.txIrq, .txOut v])))

/-- The trailing underrun: one accepted SEND on the single-slot path and two ticks leave `PERR` = 1 and the unit
deregistered, on an internally clocked device. Derived in 70_reset_and_hazards.md R197. -/
def Obligations.TrailingUnderrunTick : Prop :=
  ∀ (v : Byte) (s : State), s.sio.en.sioe = true → s.sio.mod1.txe = true → s.sio.fcnf.cnfg = false →
    s.sio.cr.ioc = false → ¬ BaudInvalid s.sio →
    ∃ t₁ t₂ t₃ : State, exec (.send v) s = .next t₁ ∧ exec .tick t₁ = .next t₂ ∧ exec .tick t₂ = .next t₃ ∧
      t₂.out = .done .goOn [.txOut v] ∧ t₃.out = .done .finished [.log .txUnderrun] ∧
      t₃.sio.cr.perr = true ∧ t₃.sio.scheduled = false

/-- A run of ticks on the FIFO path without auto-disable emits the queue's symbols, all of them, in the order they were
accepted, and leaves the queue empty. Derived in 42_datapath.md R152. -/
def Obligations.TicksDrainQueueInOrder : Prop :=
  ∀ (s : State) (rest : List Request), s.sio.scheduled = true → s.sio.fcnf.cnfg = true → s.sio.fcnf.rxtxcnt = false →
    s.pending = List.replicate s.sio.txq.length (encode .tick) ++ rest →
    lineOutput s.sio.txq.length s = s.sio.txq ∧
    ∃ t : State, stepsTo s.sio.txq.length s t ∧ t.sio = s.sio.withTxq [] ∧ t.pending = rest

/-- FREQ answers the truncated baud rate and symbol frequency, or is rejected when the baud configuration is invalid;
it changes nothing: 43_timing.md R153 to R159. The rejection's place (D25), `K` = 0 without fine-adjust (D26) and the
symbol frequency's terms (D27) are the spec's own. -/
def Obligations.FreqResult : Prop :=
  TagSelects 0x43 .freq ∧
  ∀ (s : State) (n den baud gap : Nat),
    n = (if s.sio.brcr.s = 0#4 then 16 else s.sio.brcr.s.toNat) →
    den = (if s.sio.brcr.adde = true then 16 * n + 16 - s.sio.bradd.k.toNat else 16 * n) →
    baud = 16 * s.params.tapHz.get s.sio.brcr.ck.toFin / den →
    gap = (if s.sio.mod1.sint = 0#3 then 0 else 2 ^ (s.sio.mod1.sint.toNat - 1)) →
    (s.sio.brcr.adde = true ∧ (s.sio.bradd.k = 0#4 ∨ n = 1 ∨ n = 16) → exec .freq s =
      .next (s.withOut (.rejected (.configError (.baudRate true s.sio.brcr.s s.sio.bradd.k))))) ∧
    (¬ (s.sio.brcr.adde = true ∧ (s.sio.bradd.k = 0#4 ∨ n = 1 ∨ n = 16)) →
      exec .freq s = .next (s.withOut (.done (.freq baud (baud / (8 + gap))) [])))

/-- The source's baud examples: 24,000,000 Hz with N = 4 gives 6,000,000, with K = 8 as well 5,333,333; fine-adjust with
N = 1 is rejected: 43_timing.md R157, R156. The symbol frequencies beside them rest on the spec's own D27. -/
def Obligations.SourceBaudExamples : Prop :=
  ∀ s : State, s.params.tapHz.get s.sio.brcr.ck.toFin = 24000000 → s.sio.mod1.sint = 0#3 →
    (s.sio.brcr.s = 4#4 → s.sio.brcr.adde = false →
      exec .freq s = .next (s.withOut (.done (.freq 6000000 750000) []))) ∧
    (s.sio.brcr.s = 4#4 → s.sio.brcr.adde = true → s.sio.bradd.k = 8#4 →
      exec .freq s = .next (s.withOut (.done (.freq 5333333 666666) []))) ∧
    (s.sio.brcr.s = 1#4 → s.sio.brcr.adde = true →
      ∃ c, exec .freq s = .next (s.withOut (.rejected (.configError c))))

/-- DEC.LOOKUP never fails: it answers the reference `ROM[w]` and the record `DESC[ROM[w]]` and changes nothing, for
every word: 40_decoder.md R91. In a state that meets the invariant the reference is valid (derived in 10_state.md R17),
and a word no descriptor of `BASE` or of an enabled layer claims answers reference 0, the catch-all UNKNOWN, nothing
being raised: 30_encoding.md R69. That UNKNOWN's mask is 0 is the source's, that its encoding is 0 is derived in
40_decoder.md R86 (log 20). -/
def Obligations.LookupAnswersDescriptor : Prop :=
  (∀ w : Word, decodeTxn (mkTxn 0x80 w) = .ok (.decLookup w)) ∧
  ∀ (w : Word) (s : State),
    (∃ d : Descriptor, exec (.decLookup w) s =
      .next (s.withOut (.done (.descriptor (romRead s.rom w.toNat) d) []))) ∧
    (∀ d : Descriptor, (descStore s.params.layers)[romRead s.rom w.toNat]? = some d → exec (.decLookup w) s =
      .next (s.withOut (.done (.descriptor (romRead s.rom w.toNat) d) []))) ∧
    (Inv s → ∃ d : Descriptor, (descStore s.params.layers)[romRead s.rom w.toNat]? = some d) ∧
    (Inv s → (∀ e ∈ overlaySeq s.params.layers s.cfg, claims e.2 w = false) →
      ∃ d : Descriptor, (descStore s.params.layers)[0]? = some d ∧ d.encoding = 0#16 ∧ d.mask = 0#16 ∧
        exec (.decLookup w) s = .next (s.withOut (.done (.descriptor 0 d) [])))

/-- A bare instruction word at the decoder port, the row UNKNOWN of the opcode table, answers as DEC.LOOKUP of that
word does and changes nothing; a word no other pattern claims answers reference 0, the catch-all record with encoding
0 and mask 0. That the row is read so is the model's choice, log 10; that the record's encoding is 0 is derived in
40_decoder.md R86 (log 20), and nothing is said of its other fields. -/
def Obligations.BareWordAnswersDescriptor : Prop :=
  ∀ (w : Word) (s : State),
    (Request.word w).decode = .ok (.unknown w) ∧
    (∃ d : Descriptor, exec (.unknown w) s =
      .next (s.withOut (.done (.descriptor (romRead s.rom w.toNat) d) []))) ∧
    exec (.unknown w) s = exec (.decLookup w) s ∧
    (Inv s → (∀ e ∈ overlaySeq s.params.layers s.cfg, claims e.2 w = false) →
      ∃ d : Descriptor, (descStore s.params.layers)[0]? = some d ∧ d.encoding = 0#16 ∧ d.mask = 0#16 ∧
        exec (.unknown w) s = .next (s.withOut (.done (.descriptor 0 d) [])))

/-- DEC.BUILD replaces the table and the configuration in one step, or rejects a mask with a bit at `NALT` or above and
changes nothing. The rejection is the spec's own: 40_decoder.md R87, R97 (D39). -/
def Obligations.BuildReplacesTable : Prop :=
  (∀ c : Word, decodeTxn (mkTxn 0x81 c) = .ok (.decBuild c)) ∧
  ∀ (c : Word) (s : State),
    ((∃ i : Nat, s.params.layers.nalt ≤ i ∧ c.getLsbD i = true) → exec (.decBuild c) s =
      .next (s.withOut (.rejected (.configError (.badLayerSelect c))))) ∧
    ((∀ i : Nat, s.params.layers.nalt ≤ i → c.getLsbD i = false) → exec (.decBuild c) s =
      .next (((s.withRom (romBuild s.params.layers c)).withCfg c).withOut (.done .ok [])))

/-- `apply`: each slot `encoding | x` with `x & mask = 0` takes the reference, every other slot is kept:
40_decoder.md R88. -/
def Obligations.ApplyWritesClaimedSlots : Prop :=
  ∀ (t : Rom) (k : Nat) (d : Descriptor) (w : Word), romWf t = true →
    ((∃ x : Word, x &&& d.mask = 0#16 ∧ w = d.encoding ||| x) → romRead (romApply t (k, d)) w.toNat = k) ∧
    ((¬ ∃ x : Word, x &&& d.mask = 0#16 ∧ w = d.encoding ||| x) →
      romRead (romApply t (k, d)) w.toNat = romRead t w.toNat)

/-- The words a pattern claims, and how many: 30_encoding.md R61, which derives the two closed forms and the counts. -/
def Obligations.ClaimedWords : Prop :=
  ∀ d : Descriptor,
    (∀ w : Word, w.toNat ∈ claimedSlots d ↔ ∃ x : Word, x &&& d.mask = 0#16 ∧ w = d.encoding ||| x) ∧
    (∀ w : Word, w.toNat ∈ claimedSlots d ↔ claims d w = true) ∧
    (d.wf = true → ∀ w : Word, w.toNat ∈ claimedSlots d ↔ w &&& d.mask = d.encoding) ∧
    (claimedSlots d).Nodup ∧
    (claimedSlots d).length =
      2 ^ ((List.range 16).countP fun i => !d.mask.getLsbD i && !d.encoding.getLsbD i) ∧
    (d.wf = true → (claimedSlots d).length = 2 ^ ((List.range 16).countP fun i => !d.mask.getLsbD i))

/-- Closed form of the ROM: every slot holds the reference of the last descriptor of `seq(cfg)` that claims its word,
and there always is one; each reference in `seq(cfg)` is the index of its descriptor in `DESC`; `seq(cfg)` has UNKNOWN,
each descriptor of `BASE` and each of an enabled `ALT[i]` (here counted from 0), each at its index in `DESC` and in rising
order of it, and no other; a lookup answers the descriptor of `seq(cfg)` that claims the word where none later does, with
its reference. Derived in 40_decoder.md R92 from R88 and R89; the numbering is the spec's own, 10_state.md R14 (D36). -/
def Obligations.RomHoldsLastClaiming : Prop :=
  ∀ (L : Layers) (c : Word),
    (∀ w : Word, lastClaiming w (buildSeq L c) = some (romRead (romBuild L c) w.toNat)) ∧
    (∀ e ∈ buildSeq L c, (descStore L)[e.1]? = some e.2) ∧
    (∀ (k : Nat) (d : Descriptor), (k, d) ∈ buildSeq L c ↔
      (k = 0 ∧ (descStore L)[0]? = some d) ∨
      (∃ j : Nat, L.base[j]? = some d ∧ k = 1 + j) ∨
      (∃ (i j : Nat) (l : List Descriptor), c.getLsbD i = true ∧ L.alt[i]? = some l ∧ l[j]? = some d ∧
        k = 1 + L.base.length + (L.alt.take i).flatten.length + j)) ∧
    ((buildSeq L c).map (·.1)).Pairwise (· < ·) ∧
    (∀ (k : Nat) (d : Descriptor) (w : Word) (s : State), (k, d) ∈ buildSeq L c → claims d w = true →
      (∀ e ∈ buildSeq L c, k < e.1 → claims e.2 w = false) → s.params.layers = L → s.rom = romBuild L c →
      exec (.decLookup w) s = .next (s.withOut (.done (.descriptor k d) [])))

/-- A build does not depend on what was built before: after any other accepted build it leaves the state it leaves at
once. Derived in 40_decoder.md R93. -/
def Obligations.BuildForgetsEarlierBuilds : Prop :=
  ∀ (c c' : Word) (s : State), (∀ i : Nat, s.params.layers.nalt ≤ i → c.getLsbD i = false) →
    (∀ i : Nat, s.params.layers.nalt ≤ i → c'.getLsbD i = false) →
    ∃ t₁ t₂ : State, exec (.decBuild c) s = .next t₁ ∧ exec (.decBuild c') t₁ = .next t₂ ∧
      exec (.decBuild c') s = .next t₂

/-- Under the named hypothesis H-ALT of 92_eei_decisions.md D40, the execution fields of the descriptor answered for a
word the canonical layer claims, and so its length, do not depend on the configuration: the use 40_decoder.md R96
names. -/
def Obligations.ExecutionFieldsIgnoreConfiguration : Prop :=
  ∀ (L : Layers) (c c' w : Word), AltAgrees L → (∃ d ∈ L.base, claims d w = true) →
    ∃ d d' : Descriptor, d = descAt L (romRead (romBuild L c) w.toNat) ∧
      d' = descAt L (romRead (romBuild L c') w.toNat) ∧
      sameExecution d d' = true ∧ instrLength d = instrLength d'

/-- A rejected operation leaves the state it found, but for the output port that carries the exception to the caller.
The spec's own: 60_exceptions.md R165 (D32). -/
def Obligations.RejectionChangesNothing : Prop :=
  ∀ (i : Instr) (s t : State) (e : Rejection), exec i s = .next t → t.out = .rejected e →
    t = s.withOut (.rejected e)

/-- After a rejection the block performs the next request as if the rejected one had never been issued.
The spec's own: 60_exceptions.md R178 (D32). -/
def Obligations.RejectionIsForgotten : Prop :=
  ∀ (s t : State) (q q' : Request) (rest : List Request) (e : Rejection),
    s.pending = q :: q' :: rest → step s = .next t → t.out = .rejected e →
    step t = step (s.withPending (q' :: rest))

/-- The strict reading faults exactly where the block rejects, with the rejection, and else steps as the block does.
The model's choice, log 4, after the last sentence of 60_exceptions.md R165. -/
def Obligations.StrictStepFaultsOnRejection : Prop :=
  ∀ s : State, ∃ t : State, step s = .next t ∧
    (∀ e : Rejection, t.out = .rejected e → strictStep s = .fault (.rejected e)) ∧
    ((∀ e : Rejection, t.out ≠ .rejected e) → strictStep s = .next t)

/-- An operation emits at most one event, but for a tick that pops the queue, which can emit the transmit interrupt and
then the symbol. 60_exceptions.md R176 (D44). -/
def Obligations.EventsPerOperation : Prop :=
  ∀ (i : Instr) (s t : State) (r : Result) (es : List Event), exec i s = .next t → t.out = .done r es →
    es.length ≤ 1 ∨ (i = .tick ∧ s.sio.fcnf.cnfg = true ∧ ∃ v : Byte, es = [.irq s.params.txIrq, .txOut v])

/-- The interrupt sources: an accepted RECEIVE with `RFIE` = 1, into the slot or hitting the threshold, and a tick that
pops the queue and hits the threshold, ungated. An operation that completes requests an interrupt exactly then:
60_exceptions.md R174. That `RFIE` gates both receive requests and nothing the transmit request (D15), and that taking
the transmit slot raises none (D48), are the spec's own: log 19. -/
def Obligations.InterruptSources : Prop :=
  ∀ (i : Instr) (s t : State) (r : Result) (es : List Event) (n : Nat), exec i s = .next t →
    t.out = .done r es →
    (Event.irq n ∈ es ↔
      (n = s.params.rxIrq ∧ r = .accepted ∧ s.sio.fcnf.rfie = true ∧ (∃ v : Byte, i = .receive v) ∧
        ((s.sio.fcnf.cnfg = false ∧ s.sio.mod2.rbf = false) ∨
          (s.sio.fcnf.cnfg = true ∧ rxHit s.params s.sio (s.sio.rxq.length + 1) = true))) ∨
      (n = s.params.txIrq ∧ i = .tick ∧ s.sio.fcnf.cnfg = true ∧
        ∃ (v : Byte) (q : List Byte), s.sio.txq = v :: q ∧ txHit s.params s.sio q.length = true))

/-- The sticky flags: only an overrun sets `OERR` and `ROR`, only a tick sets `PERR`, nothing sets `FERR`; only RD.CR
and soft reset clear the first three, only RD.RST clears `ROR`: 10_state.md R38, 60_exceptions.md R171 (what reads
clear, D18; the causes of `PERR`, D21, D22). -/
def Obligations.StickyFlags : Prop :=
  ∀ (i : Instr) (s t : State), exec i s = .next t →
    (s.sio.cr.oerr = false → t.sio.cr.oerr = true → (∃ v : Byte, i = .receive v) ∧ t.out = .done .overrun []) ∧
    (s.sio.cr.perr = false → t.sio.cr.perr = true → i = .tick ∧ s.sio.cr.ioc = false) ∧
    (s.sio.cr.ferr = false → t.sio.cr.ferr = false) ∧
    (s.sio.rst.ror = false → t.sio.rst.ror = true →
      (∃ v : Byte, i = .receive v) ∧ s.sio.fcnf.cnfg = true ∧ t.out = .done .overrun []) ∧
    (i ≠ .rdCr → ¬ CompletesSoftReset i s.sio →
      (s.sio.cr.oerr = true → t.sio.cr.oerr = true) ∧ (s.sio.cr.perr = true → t.sio.cr.perr = true) ∧
      (s.sio.cr.ferr = true → t.sio.cr.ferr = true)) ∧
    (i ≠ .rdRst → s.sio.rst.ror = true → t.sio.rst.ror = true)

/-- The status flags: `TBE` is set by a tick and cleared by SEND (also through WR.BUF) and soft reset, `RBF` is set by
RECEIVE and cleared by RD.BUF and soft reset, `TXRUN` is set by nothing and cleared by soft reset
(`TBE` after soft reset is log 17, `TXRUN` log 14, that RD.BUF clears `RBF` the spec's own D9): 10_state.md R38. -/
def Obligations.StatusFlags : Prop :=
  ∀ (i : Instr) (s t : State), exec i s = .next t →
    (s.sio.mod2.tbe = false → t.sio.mod2.tbe = true → i = .tick) ∧
    (s.sio.mod2.tbe = true → t.sio.mod2.tbe = false →
      (∃ v : Byte, (i = .send v ∨ i = .wrBuf v) ∧ t.sio.txSlot = v) ∨ CompletesSoftReset i s.sio) ∧
    (s.sio.mod2.rbf = false → t.sio.mod2.rbf = true → ∃ v : Byte, i = .receive v ∧ t.sio.rxSlot = v) ∧
    (s.sio.mod2.rbf = true → t.sio.mod2.rbf = false → i = .rdBuf ∨ CompletesSoftReset i s.sio) ∧
    (s.sio.mod2.txrun = false → t.sio.mod2.txrun = false) ∧
    (s.sio.mod2.txrun = true → t.sio.mod2.txrun = false → CompletesSoftReset i s.sio)

/-- Registration: only a SEND (also through WR.BUF) with `SIOE` and `TXE` 1 registers the SIO, emitting `Sched`; only a
tick that returns `Done` deregisters it: 10_state.md R39, 60_exceptions.md R181. That only SEND registers (D12, log 18)
and that `TXE` = 1 is its transmit-enable condition (D11) are the spec's own. -/
def Obligations.RegistrationChanges : Prop :=
  ∀ (i : Instr) (s t : State), exec i s = .next t →
    (s.sio.scheduled = false → t.sio.scheduled = true →
      (∃ v : Byte, i = .send v ∨ i = .wrBuf v) ∧ s.sio.en.sioe = true ∧ s.sio.mod1.txe = true ∧
      ∃ r : Result, t.out = .done r [.sched]) ∧
    (s.sio.scheduled = true → t.sio.scheduled = false → i = .tick ∧ ∃ es : List Event, t.out = .done .finished es)

/-- The queues: an operation leaves each as it is, appends at the tail, pops the head, or empties it by its clear bit,
and only the operation named does so: 10_state.md R36. That RD.BUF pops (41_register_access.md R102, D9) and that the
clear bit acts when it goes from 0 to 1 only (R120, R122, D16) are the spec's own; the append to `txq` at every length is
log 15 (D23, C1). -/
def Obligations.QueueChanges : Prop :=
  ∀ (i : Instr) (s t : State), exec i s = .next t →
    (t.sio.rxq = s.sio.rxq ∨ (∃ v : Byte, i = .receive v ∧ t.sio.rxq = s.sio.rxq ++ [v]) ∨
      (∃ v : Byte, i = .rdBuf ∧ s.sio.rxq = v :: t.sio.rxq ∧ t.out = .done (.data v) []) ∨
      (∃ v : Byte, i = .wrRfc v ∧ v.getLsbD 7 = true ∧ s.sio.rfc.rfcs = false ∧ t.sio.rxq = [])) ∧
    (t.sio.txq = s.sio.txq ∨ (∃ v : Byte, (i = .send v ∨ i = .wrBuf v) ∧ t.sio.txq = s.sio.txq ++ [v]) ∨
      (∃ v : Byte, i = .tick ∧ s.sio.txq = v :: t.sio.txq) ∨
      (∃ v : Byte, i = .wrTfc v ∧ v.getLsbD 7 = true ∧ s.sio.tfc.tfcs = false ∧ t.sio.txq = []))

/-- The inactive path is not touched: with `CNFG` = 0 the data operations keep both queues, with `CNFG` = 1 they keep
both slots, `TBE` and `RBF`: 10_state.md R42 (iv). -/
def Obligations.InactivePathUntouched : Prop :=
  ∀ (i : Instr) (s t : State) (v : Byte), i = .rdBuf ∨ i = .send v ∨ i = .receive v ∨ i = .tick →
    exec i s = .next t →
    (s.sio.fcnf.cnfg = false → t.sio.txq = s.sio.txq ∧ t.sio.rxq = s.sio.rxq) ∧
    (s.sio.fcnf.cnfg = true → t.sio.txSlot = s.sio.txSlot ∧ t.sio.rxSlot = s.sio.rxSlot ∧
      t.sio.mod2 = s.sio.mod2)

/-- The decoder and the serial interface share nothing: an operation of one keeps the other's state, and its effect and
output do not depend on the other's state. Derived in 00_scope.md R1. -/
def Obligations.DecoderAndSerialIndependent : Prop :=
  ∀ (i : Instr) (s s' t t' : State), exec i s = .next t → exec i s' = .next t' → s.params = s'.params →
    (i.port ≠ .decoder →
      t.rom = s.rom ∧ t.cfg = s.cfg ∧ (s.sio = s'.sio → t.sio = t'.sio ∧ t.out = t'.out)) ∧
    (i.port = .decoder →
      t.sio = s.sio ∧ (s.rom = s'.rom → s.cfg = s'.cfg → t.rom = t'.rom ∧ t.cfg = t'.cfg ∧ t.out = t'.out))

/-- The serial mode decides nothing: with any other value of `SM` every operation but RD.MOD0 and WR.MOD0 does the same
and leaves that value. 41_register_access.md R109, 60_exceptions.md R170 (D34). -/
def Obligations.SerialModeDecidesNothing : Prop :=
  ∀ (i : Instr) (s t : State) (m : BitVec 2), i ≠ .rdMod0 → (∀ v : Byte, i ≠ .wrMod0 v) → exec i s = .next t →
    exec i (withSm s m) = .next (withSm t m)

/-- No operation reads the output port or the requests still waiting, and none changes the latter or the parameters.
The model's own fields, log 1, log 3, log 5. -/
def Obligations.ModelFieldsUnread : Prop :=
  ∀ (i : Instr) (s t : State) (o : Output) (q : List Request), exec i s = .next t →
    t.pending = s.pending ∧ t.params = s.params ∧
    exec i ((s.withOut o).withPending q) = .next (t.withPending q)
end

