-- ==== Sys2Proof/Laws/Config.lean ====
section
/-! SUPPORT. The implementation's parameters meet the bounds of 00_scope.md R9, whatever the free constants are. -/

namespace Sys2Proof.Config

/-- Every entry of a threshold table built from a bounded function is within the bound. -/
theorem thrTable_all {f : BitVec 2 → BitVec 2 → Nat} {n : Nat} (h : ∀ a b, f a b ≤ n) :
    (thrTable f).toList.all (fun t => decide (t ≤ n)) = true := by
  simp [thrTable, h]

/-- A mask cut to its low `n` bits has no bit at `n` or above. -/
theorem and_low_ushiftRight (c : Word) (n : Nat) :
    (c &&& BitVec.ofNat 16 (2 ^ n - 1)) >>> n = 0#16 := by
  apply BitVec.eq_of_getLsbD_eq
  intro i _
  simp [BitVec.getLsbD_ushiftRight, BitVec.getLsbD_ofNat, Nat.testBit_two_pow_sub_one]

theorem alt_length : alt.length ≤ 16 := by simp [alt]

/-- The parameters the machine has after reset are within the bounds. -/
theorem params_wf : params.wf = true := by
  have h1 := rxqCapRaw.isLt
  have h2 := txqCapRaw.isLt
  have hr : params.rxThr = thrTable fun d l => min (rxThrRaw d l) rxqCap := by unfold params; rfl
  have h3 : (thrTable fun d l => min (rxThrRaw d l) rxqCap).toList.all
      (fun t => decide (t ≤ rxqCapRaw.val + 1)) = true :=
    thrTable_all (f := fun d l => min (rxThrRaw d l) rxqCap) fun a b => Nat.min_le_right _ _
  have h4 : selectsExisting alt.length (cfg0Raw &&& BitVec.ofNat 16 (2 ^ alt.length - 1)) = true := by
    simp only [selectsExisting, and_low_ushiftRight, beq_self_eq_true]
  have h5 : params.rxqCap = rxqCapRaw.val + 1 := rfl
  have h6 : params.txqCap = txqCapRaw.val + 1 := rfl
  have h7 : params.layers.nalt = alt.length := rfl
  have h8 : params.cfg0 = cfg0Raw &&& BitVec.ofNat 16 (2 ^ alt.length - 1) := by unfold params; rfl
  have h9 := alt_length
  simp only [Params.wf, hr, h5, h3, h6, h7, h8, h4, Bool.and_true, Bool.and_eq_true, decide_eq_true_eq]
  omega

end Sys2Proof.Config
end

