-- ==== Sys2Proof/Laws/Decode.lean ====
section
/-! SUPPORT. The fields of an assembled transaction, and the decoder as a function of the tag. -/

namespace Sys2Proof

open Machine

/-- A bit of a transaction is a bit of its data below 16 and of its tag from there on. -/
theorem getLsbD_mkTxn (t : BitVec 8) (d : Word) (i : Nat) :
    (mkTxn t d).getLsbD i = if i < 16 then d.getLsbD i else t.getLsbD (i - 16) :=
  (BitVec.getLsbD_append (x := t) (y := d) (i := i)).trans (by simp)

/-- A bit of an 8-bit operand's data is a bit of the operand, and 0 above it. -/
theorem getLsbD_data8 (v : Byte) (i : Nat) : (data8 v).getLsbD i = v.getLsbD i :=
  (BitVec.getLsbD_append (x := 0#8) (y := v) (i := i)).trans (by
    by_cases h : i < 8
    · simp [h]
    · simp [h, BitVec.getLsbD_of_ge v i (Nat.le_of_not_lt h)])

@[simp] theorem txnTag_mkTxn (t : BitVec 8) (d : Word) : txnTag (mkTxn t d) = t := by
  apply BitVec.eq_of_getLsbD_eq
  intro i hi
  simp [txnTag, getLsbD_mkTxn, hi]

@[simp] theorem imm16_mkTxn (t : BitVec 8) (d : Word) : imm16 (mkTxn t d) = d := by
  apply BitVec.eq_of_getLsbD_eq
  intro i hi
  simp [imm16, getLsbD_mkTxn, hi]

@[simp] theorem imm8_mkTxn_data8 (t : BitVec 8) (v : Byte) : imm8 (mkTxn t (data8 v)) = v := by
  apply BitVec.eq_of_getLsbD_eq
  intro i hi
  have h : i < 16 := by omega
  simp only [imm8, BitVec.getLsbD_extractLsb', getLsbD_mkTxn, Nat.zero_add, hi, h, if_true, getLsbD_data8]
  simp

/-- The decoder looks at a transaction's tag to choose the row, and only then at its operand. -/
theorem decodeTxn_of_row {w : Txn} {row : TagRow} (h : tagMap.find? (fun r => r.tag == txnTag w) = some row) :
    decodeTxn w = .ok (row.instr w) := by
  simp [decodeTxn, h]

end Sys2Proof
end

