-- ==== Sys2Proof/Laws/State.lean ====
section
/-! SUPPORT. One lemma per field per update of the state, so that no proof unfolds a record update. -/

namespace Sys2Proof.Machine

variable (s : State) (u : Sio)

@[simp] theorem State.withParams_params (p : Params) : (s.withParams p).params = p := rfl
@[simp] theorem State.withParams_rom (p : Params) : (s.withParams p).rom = s.rom := rfl
@[simp] theorem State.withParams_cfg (p : Params) : (s.withParams p).cfg = s.cfg := rfl
@[simp] theorem State.withParams_sio (p : Params) : (s.withParams p).sio = s.sio := rfl
@[simp] theorem State.withParams_pending (p : Params) : (s.withParams p).pending = s.pending := rfl
@[simp] theorem State.withParams_out (p : Params) : (s.withParams p).out = s.out := rfl
@[simp] theorem State.withRom_params (t : Rom) : (s.withRom t).params = s.params := rfl
@[simp] theorem State.withRom_rom (t : Rom) : (s.withRom t).rom = t := rfl
@[simp] theorem State.withRom_cfg (t : Rom) : (s.withRom t).cfg = s.cfg := rfl
@[simp] theorem State.withRom_sio (t : Rom) : (s.withRom t).sio = s.sio := rfl
@[simp] theorem State.withRom_pending (t : Rom) : (s.withRom t).pending = s.pending := rfl
@[simp] theorem State.withRom_out (t : Rom) : (s.withRom t).out = s.out := rfl
@[simp] theorem State.withCfg_params (c : Word) : (s.withCfg c).params = s.params := rfl
@[simp] theorem State.withCfg_rom (c : Word) : (s.withCfg c).rom = s.rom := rfl
@[simp] theorem State.withCfg_cfg (c : Word) : (s.withCfg c).cfg = c := rfl
@[simp] theorem State.withCfg_sio (c : Word) : (s.withCfg c).sio = s.sio := rfl
@[simp] theorem State.withCfg_pending (c : Word) : (s.withCfg c).pending = s.pending := rfl
@[simp] theorem State.withCfg_out (c : Word) : (s.withCfg c).out = s.out := rfl
@[simp] theorem State.withSio_params (u : Sio) : (s.withSio u).params = s.params := rfl
@[simp] theorem State.withSio_rom (u : Sio) : (s.withSio u).rom = s.rom := rfl
@[simp] theorem State.withSio_cfg (u : Sio) : (s.withSio u).cfg = s.cfg := rfl
@[simp] theorem State.withSio_sio (u : Sio) : (s.withSio u).sio = u := rfl
@[simp] theorem State.withSio_pending (u : Sio) : (s.withSio u).pending = s.pending := rfl
@[simp] theorem State.withSio_out (u : Sio) : (s.withSio u).out = s.out := rfl
@[simp] theorem State.withPending_params (q : List Request) : (s.withPending q).params = s.params := rfl
@[simp] theorem State.withPending_rom (q : List Request) : (s.withPending q).rom = s.rom := rfl
@[simp] theorem State.withPending_cfg (q : List Request) : (s.withPending q).cfg = s.cfg := rfl
@[simp] theorem State.withPending_sio (q : List Request) : (s.withPending q).sio = s.sio := rfl
@[simp] theorem State.withPending_pending (q : List Request) : (s.withPending q).pending = q := rfl
@[simp] theorem State.withPending_out (q : List Request) : (s.withPending q).out = s.out := rfl
@[simp] theorem State.withOut_params (o : Output) : (s.withOut o).params = s.params := rfl
@[simp] theorem State.withOut_rom (o : Output) : (s.withOut o).rom = s.rom := rfl
@[simp] theorem State.withOut_cfg (o : Output) : (s.withOut o).cfg = s.cfg := rfl
@[simp] theorem State.withOut_sio (o : Output) : (s.withOut o).sio = s.sio := rfl
@[simp] theorem State.withOut_pending (o : Output) : (s.withOut o).pending = s.pending := rfl
@[simp] theorem State.withOut_out (o : Output) : (s.withOut o).out = o := rfl

@[simp] theorem Sio.withEn_en (a : En) : (u.withEn a).en = a := rfl
@[simp] theorem Sio.withEn_cr (a : En) : (u.withEn a).cr = u.cr := rfl
@[simp] theorem Sio.withEn_mod0 (a : En) : (u.withEn a).mod0 = u.mod0 := rfl
@[simp] theorem Sio.withEn_mod1 (a : En) : (u.withEn a).mod1 = u.mod1 := rfl
@[simp] theorem Sio.withEn_mod2 (a : En) : (u.withEn a).mod2 = u.mod2 := rfl
@[simp] theorem Sio.withEn_brcr (a : En) : (u.withEn a).brcr = u.brcr := rfl
@[simp] theorem Sio.withEn_bradd (a : En) : (u.withEn a).bradd = u.bradd := rfl
@[simp] theorem Sio.withEn_rfc (a : En) : (u.withEn a).rfc = u.rfc := rfl
@[simp] theorem Sio.withEn_tfc (a : En) : (u.withEn a).tfc = u.tfc := rfl
@[simp] theorem Sio.withEn_rst (a : En) : (u.withEn a).rst = u.rst := rfl
@[simp] theorem Sio.withEn_fcnf (a : En) : (u.withEn a).fcnf = u.fcnf := rfl
@[simp] theorem Sio.withEn_txSlot (a : En) : (u.withEn a).txSlot = u.txSlot := rfl
@[simp] theorem Sio.withEn_rxSlot (a : En) : (u.withEn a).rxSlot = u.rxSlot := rfl
@[simp] theorem Sio.withEn_txq (a : En) : (u.withEn a).txq = u.txq := rfl
@[simp] theorem Sio.withEn_rxq (a : En) : (u.withEn a).rxq = u.rxq := rfl
@[simp] theorem Sio.withEn_scheduled (a : En) : (u.withEn a).scheduled = u.scheduled := rfl
@[simp] theorem Sio.withCr_en (a : Cr) : (u.withCr a).en = u.en := rfl
@[simp] theorem Sio.withCr_cr (a : Cr) : (u.withCr a).cr = a := rfl
@[simp] theorem Sio.withCr_mod0 (a : Cr) : (u.withCr a).mod0 = u.mod0 := rfl
@[simp] theorem Sio.withCr_mod1 (a : Cr) : (u.withCr a).mod1 = u.mod1 := rfl
@[simp] theorem Sio.withCr_mod2 (a : Cr) : (u.withCr a).mod2 = u.mod2 := rfl
@[simp] theorem Sio.withCr_brcr (a : Cr) : (u.withCr a).brcr = u.brcr := rfl
@[simp] theorem Sio.withCr_bradd (a : Cr) : (u.withCr a).bradd = u.bradd := rfl
@[simp] theorem Sio.withCr_rfc (a : Cr) : (u.withCr a).rfc = u.rfc := rfl
@[simp] theorem Sio.withCr_tfc (a : Cr) : (u.withCr a).tfc = u.tfc := rfl
@[simp] theorem Sio.withCr_rst (a : Cr) : (u.withCr a).rst = u.rst := rfl
@[simp] theorem Sio.withCr_fcnf (a : Cr) : (u.withCr a).fcnf = u.fcnf := rfl
@[simp] theorem Sio.withCr_txSlot (a : Cr) : (u.withCr a).txSlot = u.txSlot := rfl
@[simp] theorem Sio.withCr_rxSlot (a : Cr) : (u.withCr a).rxSlot = u.rxSlot := rfl
@[simp] theorem Sio.withCr_txq (a : Cr) : (u.withCr a).txq = u.txq := rfl
@[simp] theorem Sio.withCr_rxq (a : Cr) : (u.withCr a).rxq = u.rxq := rfl
@[simp] theorem Sio.withCr_scheduled (a : Cr) : (u.withCr a).scheduled = u.scheduled := rfl
@[simp] theorem Sio.withMod0_en (a : Mod0) : (u.withMod0 a).en = u.en := rfl
@[simp] theorem Sio.withMod0_cr (a : Mod0) : (u.withMod0 a).cr = u.cr := rfl
@[simp] theorem Sio.withMod0_mod0 (a : Mod0) : (u.withMod0 a).mod0 = a := rfl
@[simp] theorem Sio.withMod0_mod1 (a : Mod0) : (u.withMod0 a).mod1 = u.mod1 := rfl
@[simp] theorem Sio.withMod0_mod2 (a : Mod0) : (u.withMod0 a).mod2 = u.mod2 := rfl
@[simp] theorem Sio.withMod0_brcr (a : Mod0) : (u.withMod0 a).brcr = u.brcr := rfl
@[simp] theorem Sio.withMod0_bradd (a : Mod0) : (u.withMod0 a).bradd = u.bradd := rfl
@[simp] theorem Sio.withMod0_rfc (a : Mod0) : (u.withMod0 a).rfc = u.rfc := rfl
@[simp] theorem Sio.withMod0_tfc (a : Mod0) : (u.withMod0 a).tfc = u.tfc := rfl
@[simp] theorem Sio.withMod0_rst (a : Mod0) : (u.withMod0 a).rst = u.rst := rfl
@[simp] theorem Sio.withMod0_fcnf (a : Mod0) : (u.withMod0 a).fcnf = u.fcnf := rfl
@[simp] theorem Sio.withMod0_txSlot (a : Mod0) : (u.withMod0 a).txSlot = u.txSlot := rfl
@[simp] theorem Sio.withMod0_rxSlot (a : Mod0) : (u.withMod0 a).rxSlot = u.rxSlot := rfl
@[simp] theorem Sio.withMod0_txq (a : Mod0) : (u.withMod0 a).txq = u.txq := rfl
@[simp] theorem Sio.withMod0_rxq (a : Mod0) : (u.withMod0 a).rxq = u.rxq := rfl
@[simp] theorem Sio.withMod0_scheduled (a : Mod0) : (u.withMod0 a).scheduled = u.scheduled := rfl
@[simp] theorem Sio.withMod1_en (a : Mod1) : (u.withMod1 a).en = u.en := rfl
@[simp] theorem Sio.withMod1_cr (a : Mod1) : (u.withMod1 a).cr = u.cr := rfl
@[simp] theorem Sio.withMod1_mod0 (a : Mod1) : (u.withMod1 a).mod0 = u.mod0 := rfl
@[simp] theorem Sio.withMod1_mod1 (a : Mod1) : (u.withMod1 a).mod1 = a := rfl
@[simp] theorem Sio.withMod1_mod2 (a : Mod1) : (u.withMod1 a).mod2 = u.mod2 := rfl
@[simp] theorem Sio.withMod1_brcr (a : Mod1) : (u.withMod1 a).brcr = u.brcr := rfl
@[simp] theorem Sio.withMod1_bradd (a : Mod1) : (u.withMod1 a).bradd = u.bradd := rfl
@[simp] theorem Sio.withMod1_rfc (a : Mod1) : (u.withMod1 a).rfc = u.rfc := rfl
@[simp] theorem Sio.withMod1_tfc (a : Mod1) : (u.withMod1 a).tfc = u.tfc := rfl
@[simp] theorem Sio.withMod1_rst (a : Mod1) : (u.withMod1 a).rst = u.rst := rfl
@[simp] theorem Sio.withMod1_fcnf (a : Mod1) : (u.withMod1 a).fcnf = u.fcnf := rfl
@[simp] theorem Sio.withMod1_txSlot (a : Mod1) : (u.withMod1 a).txSlot = u.txSlot := rfl
@[simp] theorem Sio.withMod1_rxSlot (a : Mod1) : (u.withMod1 a).rxSlot = u.rxSlot := rfl
@[simp] theorem Sio.withMod1_txq (a : Mod1) : (u.withMod1 a).txq = u.txq := rfl
@[simp] theorem Sio.withMod1_rxq (a : Mod1) : (u.withMod1 a).rxq = u.rxq := rfl
@[simp] theorem Sio.withMod1_scheduled (a : Mod1) : (u.withMod1 a).scheduled = u.scheduled := rfl
@[simp] theorem Sio.withMod2_en (a : Mod2) : (u.withMod2 a).en = u.en := rfl
@[simp] theorem Sio.withMod2_cr (a : Mod2) : (u.withMod2 a).cr = u.cr := rfl
@[simp] theorem Sio.withMod2_mod0 (a : Mod2) : (u.withMod2 a).mod0 = u.mod0 := rfl
@[simp] theorem Sio.withMod2_mod1 (a : Mod2) : (u.withMod2 a).mod1 = u.mod1 := rfl
@[simp] theorem Sio.withMod2_mod2 (a : Mod2) : (u.withMod2 a).mod2 = a := rfl
@[simp] theorem Sio.withMod2_brcr (a : Mod2) : (u.withMod2 a).brcr = u.brcr := rfl
@[simp] theorem Sio.withMod2_bradd (a : Mod2) : (u.withMod2 a).bradd = u.bradd := rfl
@[simp] theorem Sio.withMod2_rfc (a : Mod2) : (u.withMod2 a).rfc = u.rfc := rfl
@[simp] theorem Sio.withMod2_tfc (a : Mod2) : (u.withMod2 a).tfc = u.tfc := rfl
@[simp] theorem Sio.withMod2_rst (a : Mod2) : (u.withMod2 a).rst = u.rst := rfl
@[simp] theorem Sio.withMod2_fcnf (a : Mod2) : (u.withMod2 a).fcnf = u.fcnf := rfl
@[simp] theorem Sio.withMod2_txSlot (a : Mod2) : (u.withMod2 a).txSlot = u.txSlot := rfl
@[simp] theorem Sio.withMod2_rxSlot (a : Mod2) : (u.withMod2 a).rxSlot = u.rxSlot := rfl
@[simp] theorem Sio.withMod2_txq (a : Mod2) : (u.withMod2 a).txq = u.txq := rfl
@[simp] theorem Sio.withMod2_rxq (a : Mod2) : (u.withMod2 a).rxq = u.rxq := rfl
@[simp] theorem Sio.withMod2_scheduled (a : Mod2) : (u.withMod2 a).scheduled = u.scheduled := rfl
@[simp] theorem Sio.withBrcr_en (a : Brcr) : (u.withBrcr a).en = u.en := rfl
@[simp] theorem Sio.withBrcr_cr (a : Brcr) : (u.withBrcr a).cr = u.cr := rfl
@[simp] theorem Sio.withBrcr_mod0 (a : Brcr) : (u.withBrcr a).mod0 = u.mod0 := rfl
@[simp] theorem Sio.withBrcr_mod1 (a : Brcr) : (u.withBrcr a).mod1 = u.mod1 := rfl
@[simp] theorem Sio.withBrcr_mod2 (a : Brcr) : (u.withBrcr a).mod2 = u.mod2 := rfl
@[simp] theorem Sio.withBrcr_brcr (a : Brcr) : (u.withBrcr a).brcr = a := rfl
@[simp] theorem Sio.withBrcr_bradd (a : Brcr) : (u.withBrcr a).bradd = u.bradd := rfl
@[simp] theorem Sio.withBrcr_rfc (a : Brcr) : (u.withBrcr a).rfc = u.rfc := rfl
@[simp] theorem Sio.withBrcr_tfc (a : Brcr) : (u.withBrcr a).tfc = u.tfc := rfl
@[simp] theorem Sio.withBrcr_rst (a : Brcr) : (u.withBrcr a).rst = u.rst := rfl
@[simp] theorem Sio.withBrcr_fcnf (a : Brcr) : (u.withBrcr a).fcnf = u.fcnf := rfl
@[simp] theorem Sio.withBrcr_txSlot (a : Brcr) : (u.withBrcr a).txSlot = u.txSlot := rfl
@[simp] theorem Sio.withBrcr_rxSlot (a : Brcr) : (u.withBrcr a).rxSlot = u.rxSlot := rfl
@[simp] theorem Sio.withBrcr_txq (a : Brcr) : (u.withBrcr a).txq = u.txq := rfl
@[simp] theorem Sio.withBrcr_rxq (a : Brcr) : (u.withBrcr a).rxq = u.rxq := rfl
@[simp] theorem Sio.withBrcr_scheduled (a : Brcr) : (u.withBrcr a).scheduled = u.scheduled := rfl
@[simp] theorem Sio.withBradd_en (a : Bradd) : (u.withBradd a).en = u.en := rfl
@[simp] theorem Sio.withBradd_cr (a : Bradd) : (u.withBradd a).cr = u.cr := rfl
@[simp] theorem Sio.withBradd_mod0 (a : Bradd) : (u.withBradd a).mod0 = u.mod0 := rfl
@[simp] theorem Sio.withBradd_mod1 (a : Bradd) : (u.withBradd a).mod1 = u.mod1 := rfl
@[simp] theorem Sio.withBradd_mod2 (a : Bradd) : (u.withBradd a).mod2 = u.mod2 := rfl
@[simp] theorem Sio.withBradd_brcr (a : Bradd) : (u.withBradd a).brcr = u.brcr := rfl
@[simp] theorem Sio.withBradd_bradd (a : Bradd) : (u.withBradd a).bradd = a := rfl
@[simp] theorem Sio.withBradd_rfc (a : Bradd) : (u.withBradd a).rfc = u.rfc := rfl
@[simp] theorem Sio.withBradd_tfc (a : Bradd) : (u.withBradd a).tfc = u.tfc := rfl
@[simp] theorem Sio.withBradd_rst (a : Bradd) : (u.withBradd a).rst = u.rst := rfl
@[simp] theorem Sio.withBradd_fcnf (a : Bradd) : (u.withBradd a).fcnf = u.fcnf := rfl
@[simp] theorem Sio.withBradd_txSlot (a : Bradd) : (u.withBradd a).txSlot = u.txSlot := rfl
@[simp] theorem Sio.withBradd_rxSlot (a : Bradd) : (u.withBradd a).rxSlot = u.rxSlot := rfl
@[simp] theorem Sio.withBradd_txq (a : Bradd) : (u.withBradd a).txq = u.txq := rfl
@[simp] theorem Sio.withBradd_rxq (a : Bradd) : (u.withBradd a).rxq = u.rxq := rfl
@[simp] theorem Sio.withBradd_scheduled (a : Bradd) : (u.withBradd a).scheduled = u.scheduled := rfl
@[simp] theorem Sio.withRfc_en (a : Rfc) : (u.withRfc a).en = u.en := rfl
@[simp] theorem Sio.withRfc_cr (a : Rfc) : (u.withRfc a).cr = u.cr := rfl
@[simp] theorem Sio.withRfc_mod0 (a : Rfc) : (u.withRfc a).mod0 = u.mod0 := rfl
@[simp] theorem Sio.withRfc_mod1 (a : Rfc) : (u.withRfc a).mod1 = u.mod1 := rfl
@[simp] theorem Sio.withRfc_mod2 (a : Rfc) : (u.withRfc a).mod2 = u.mod2 := rfl
@[simp] theorem Sio.withRfc_brcr (a : Rfc) : (u.withRfc a).brcr = u.brcr := rfl
@[simp] theorem Sio.withRfc_bradd (a : Rfc) : (u.withRfc a).bradd = u.bradd := rfl
@[simp] theorem Sio.withRfc_rfc (a : Rfc) : (u.withRfc a).rfc = a := rfl
@[simp] theorem Sio.withRfc_tfc (a : Rfc) : (u.withRfc a).tfc = u.tfc := rfl
@[simp] theorem Sio.withRfc_rst (a : Rfc) : (u.withRfc a).rst = u.rst := rfl
@[simp] theorem Sio.withRfc_fcnf (a : Rfc) : (u.withRfc a).fcnf = u.fcnf := rfl
@[simp] theorem Sio.withRfc_txSlot (a : Rfc) : (u.withRfc a).txSlot = u.txSlot := rfl
@[simp] theorem Sio.withRfc_rxSlot (a : Rfc) : (u.withRfc a).rxSlot = u.rxSlot := rfl
@[simp] theorem Sio.withRfc_txq (a : Rfc) : (u.withRfc a).txq = u.txq := rfl
@[simp] theorem Sio.withRfc_rxq (a : Rfc) : (u.withRfc a).rxq = u.rxq := rfl
@[simp] theorem Sio.withRfc_scheduled (a : Rfc) : (u.withRfc a).scheduled = u.scheduled := rfl
@[simp] theorem Sio.withTfc_en (a : Tfc) : (u.withTfc a).en = u.en := rfl
@[simp] theorem Sio.withTfc_cr (a : Tfc) : (u.withTfc a).cr = u.cr := rfl
@[simp] theorem Sio.withTfc_mod0 (a : Tfc) : (u.withTfc a).mod0 = u.mod0 := rfl
@[simp] theorem Sio.withTfc_mod1 (a : Tfc) : (u.withTfc a).mod1 = u.mod1 := rfl
@[simp] theorem Sio.withTfc_mod2 (a : Tfc) : (u.withTfc a).mod2 = u.mod2 := rfl
@[simp] theorem Sio.withTfc_brcr (a : Tfc) : (u.withTfc a).brcr = u.brcr := rfl
@[simp] theorem Sio.withTfc_bradd (a : Tfc) : (u.withTfc a).bradd = u.bradd := rfl
@[simp] theorem Sio.withTfc_rfc (a : Tfc) : (u.withTfc a).rfc = u.rfc := rfl
@[simp] theorem Sio.withTfc_tfc (a : Tfc) : (u.withTfc a).tfc = a := rfl
@[simp] theorem Sio.withTfc_rst (a : Tfc) : (u.withTfc a).rst = u.rst := rfl
@[simp] theorem Sio.withTfc_fcnf (a : Tfc) : (u.withTfc a).fcnf = u.fcnf := rfl
@[simp] theorem Sio.withTfc_txSlot (a : Tfc) : (u.withTfc a).txSlot = u.txSlot := rfl
@[simp] theorem Sio.withTfc_rxSlot (a : Tfc) : (u.withTfc a).rxSlot = u.rxSlot := rfl
@[simp] theorem Sio.withTfc_txq (a : Tfc) : (u.withTfc a).txq = u.txq := rfl
@[simp] theorem Sio.withTfc_rxq (a : Tfc) : (u.withTfc a).rxq = u.rxq := rfl
@[simp] theorem Sio.withTfc_scheduled (a : Tfc) : (u.withTfc a).scheduled = u.scheduled := rfl
@[simp] theorem Sio.withRst_en (a : Rst) : (u.withRst a).en = u.en := rfl
@[simp] theorem Sio.withRst_cr (a : Rst) : (u.withRst a).cr = u.cr := rfl
@[simp] theorem Sio.withRst_mod0 (a : Rst) : (u.withRst a).mod0 = u.mod0 := rfl
@[simp] theorem Sio.withRst_mod1 (a : Rst) : (u.withRst a).mod1 = u.mod1 := rfl
@[simp] theorem Sio.withRst_mod2 (a : Rst) : (u.withRst a).mod2 = u.mod2 := rfl
@[simp] theorem Sio.withRst_brcr (a : Rst) : (u.withRst a).brcr = u.brcr := rfl
@[simp] theorem Sio.withRst_bradd (a : Rst) : (u.withRst a).bradd = u.bradd := rfl
@[simp] theorem Sio.withRst_rfc (a : Rst) : (u.withRst a).rfc = u.rfc := rfl
@[simp] theorem Sio.withRst_tfc (a : Rst) : (u.withRst a).tfc = u.tfc := rfl
@[simp] theorem Sio.withRst_rst (a : Rst) : (u.withRst a).rst = a := rfl
@[simp] theorem Sio.withRst_fcnf (a : Rst) : (u.withRst a).fcnf = u.fcnf := rfl
@[simp] theorem Sio.withRst_txSlot (a : Rst) : (u.withRst a).txSlot = u.txSlot := rfl
@[simp] theorem Sio.withRst_rxSlot (a : Rst) : (u.withRst a).rxSlot = u.rxSlot := rfl
@[simp] theorem Sio.withRst_txq (a : Rst) : (u.withRst a).txq = u.txq := rfl
@[simp] theorem Sio.withRst_rxq (a : Rst) : (u.withRst a).rxq = u.rxq := rfl
@[simp] theorem Sio.withRst_scheduled (a : Rst) : (u.withRst a).scheduled = u.scheduled := rfl
@[simp] theorem Sio.withFcnf_en (a : Fcnf) : (u.withFcnf a).en = u.en := rfl
@[simp] theorem Sio.withFcnf_cr (a : Fcnf) : (u.withFcnf a).cr = u.cr := rfl
@[simp] theorem Sio.withFcnf_mod0 (a : Fcnf) : (u.withFcnf a).mod0 = u.mod0 := rfl
@[simp] theorem Sio.withFcnf_mod1 (a : Fcnf) : (u.withFcnf a).mod1 = u.mod1 := rfl
@[simp] theorem Sio.withFcnf_mod2 (a : Fcnf) : (u.withFcnf a).mod2 = u.mod2 := rfl
@[simp] theorem Sio.withFcnf_brcr (a : Fcnf) : (u.withFcnf a).brcr = u.brcr := rfl
@[simp] theorem Sio.withFcnf_bradd (a : Fcnf) : (u.withFcnf a).bradd = u.bradd := rfl
@[simp] theorem Sio.withFcnf_rfc (a : Fcnf) : (u.withFcnf a).rfc = u.rfc := rfl
@[simp] theorem Sio.withFcnf_tfc (a : Fcnf) : (u.withFcnf a).tfc = u.tfc := rfl
@[simp] theorem Sio.withFcnf_rst (a : Fcnf) : (u.withFcnf a).rst = u.rst := rfl
@[simp] theorem Sio.withFcnf_fcnf (a : Fcnf) : (u.withFcnf a).fcnf = a := rfl
@[simp] theorem Sio.withFcnf_txSlot (a : Fcnf) : (u.withFcnf a).txSlot = u.txSlot := rfl
@[simp] theorem Sio.withFcnf_rxSlot (a : Fcnf) : (u.withFcnf a).rxSlot = u.rxSlot := rfl
@[simp] theorem Sio.withFcnf_txq (a : Fcnf) : (u.withFcnf a).txq = u.txq := rfl
@[simp] theorem Sio.withFcnf_rxq (a : Fcnf) : (u.withFcnf a).rxq = u.rxq := rfl
@[simp] theorem Sio.withFcnf_scheduled (a : Fcnf) : (u.withFcnf a).scheduled = u.scheduled := rfl
@[simp] theorem Sio.withTxSlot_en (a : Byte) : (u.withTxSlot a).en = u.en := rfl
@[simp] theorem Sio.withTxSlot_cr (a : Byte) : (u.withTxSlot a).cr = u.cr := rfl
@[simp] theorem Sio.withTxSlot_mod0 (a : Byte) : (u.withTxSlot a).mod0 = u.mod0 := rfl
@[simp] theorem Sio.withTxSlot_mod1 (a : Byte) : (u.withTxSlot a).mod1 = u.mod1 := rfl
@[simp] theorem Sio.withTxSlot_mod2 (a : Byte) : (u.withTxSlot a).mod2 = u.mod2 := rfl
@[simp] theorem Sio.withTxSlot_brcr (a : Byte) : (u.withTxSlot a).brcr = u.brcr := rfl
@[simp] theorem Sio.withTxSlot_bradd (a : Byte) : (u.withTxSlot a).bradd = u.bradd := rfl
@[simp] theorem Sio.withTxSlot_rfc (a : Byte) : (u.withTxSlot a).rfc = u.rfc := rfl
@[simp] theorem Sio.withTxSlot_tfc (a : Byte) : (u.withTxSlot a).tfc = u.tfc := rfl
@[simp] theorem Sio.withTxSlot_rst (a : Byte) : (u.withTxSlot a).rst = u.rst := rfl
@[simp] theorem Sio.withTxSlot_fcnf (a : Byte) : (u.withTxSlot a).fcnf = u.fcnf := rfl
@[simp] theorem Sio.withTxSlot_txSlot (a : Byte) : (u.withTxSlot a).txSlot = a := rfl
@[simp] theorem Sio.withTxSlot_rxSlot (a : Byte) : (u.withTxSlot a).rxSlot = u.rxSlot := rfl
@[simp] theorem Sio.withTxSlot_txq (a : Byte) : (u.withTxSlot a).txq = u.txq := rfl
@[simp] theorem Sio.withTxSlot_rxq (a : Byte) : (u.withTxSlot a).rxq = u.rxq := rfl
@[simp] theorem Sio.withTxSlot_scheduled (a : Byte) : (u.withTxSlot a).scheduled = u.scheduled := rfl
@[simp] theorem Sio.withRxSlot_en (a : Byte) : (u.withRxSlot a).en = u.en := rfl
@[simp] theorem Sio.withRxSlot_cr (a : Byte) : (u.withRxSlot a).cr = u.cr := rfl
@[simp] theorem Sio.withRxSlot_mod0 (a : Byte) : (u.withRxSlot a).mod0 = u.mod0 := rfl
@[simp] theorem Sio.withRxSlot_mod1 (a : Byte) : (u.withRxSlot a).mod1 = u.mod1 := rfl
@[simp] theorem Sio.withRxSlot_mod2 (a : Byte) : (u.withRxSlot a).mod2 = u.mod2 := rfl
@[simp] theorem Sio.withRxSlot_brcr (a : Byte) : (u.withRxSlot a).brcr = u.brcr := rfl
@[simp] theorem Sio.withRxSlot_bradd (a : Byte) : (u.withRxSlot a).bradd = u.bradd := rfl
@[simp] theorem Sio.withRxSlot_rfc (a : Byte) : (u.withRxSlot a).rfc = u.rfc := rfl
@[simp] theorem Sio.withRxSlot_tfc (a : Byte) : (u.withRxSlot a).tfc = u.tfc := rfl
@[simp] theorem Sio.withRxSlot_rst (a : Byte) : (u.withRxSlot a).rst = u.rst := rfl
@[simp] theorem Sio.withRxSlot_fcnf (a : Byte) : (u.withRxSlot a).fcnf = u.fcnf := rfl
@[simp] theorem Sio.withRxSlot_txSlot (a : Byte) : (u.withRxSlot a).txSlot = u.txSlot := rfl
@[simp] theorem Sio.withRxSlot_rxSlot (a : Byte) : (u.withRxSlot a).rxSlot = a := rfl
@[simp] theorem Sio.withRxSlot_txq (a : Byte) : (u.withRxSlot a).txq = u.txq := rfl
@[simp] theorem Sio.withRxSlot_rxq (a : Byte) : (u.withRxSlot a).rxq = u.rxq := rfl
@[simp] theorem Sio.withRxSlot_scheduled (a : Byte) : (u.withRxSlot a).scheduled = u.scheduled := rfl
@[simp] theorem Sio.withTxq_en (a : List Byte) : (u.withTxq a).en = u.en := rfl
@[simp] theorem Sio.withTxq_cr (a : List Byte) : (u.withTxq a).cr = u.cr := rfl
@[simp] theorem Sio.withTxq_mod0 (a : List Byte) : (u.withTxq a).mod0 = u.mod0 := rfl
@[simp] theorem Sio.withTxq_mod1 (a : List Byte) : (u.withTxq a).mod1 = u.mod1 := rfl
@[simp] theorem Sio.withTxq_mod2 (a : List Byte) : (u.withTxq a).mod2 = u.mod2 := rfl
@[simp] theorem Sio.withTxq_brcr (a : List Byte) : (u.withTxq a).brcr = u.brcr := rfl
@[simp] theorem Sio.withTxq_bradd (a : List Byte) : (u.withTxq a).bradd = u.bradd := rfl
@[simp] theorem Sio.withTxq_rfc (a : List Byte) : (u.withTxq a).rfc = u.rfc := rfl
@[simp] theorem Sio.withTxq_tfc (a : List Byte) : (u.withTxq a).tfc = u.tfc := rfl
@[simp] theorem Sio.withTxq_rst (a : List Byte) : (u.withTxq a).rst = u.rst := rfl
@[simp] theorem Sio.withTxq_fcnf (a : List Byte) : (u.withTxq a).fcnf = u.fcnf := rfl
@[simp] theorem Sio.withTxq_txSlot (a : List Byte) : (u.withTxq a).txSlot = u.txSlot := rfl
@[simp] theorem Sio.withTxq_rxSlot (a : List Byte) : (u.withTxq a).rxSlot = u.rxSlot := rfl
@[simp] theorem Sio.withTxq_txq (a : List Byte) : (u.withTxq a).txq = a := rfl
@[simp] theorem Sio.withTxq_rxq (a : List Byte) : (u.withTxq a).rxq = u.rxq := rfl
@[simp] theorem Sio.withTxq_scheduled (a : List Byte) : (u.withTxq a).scheduled = u.scheduled := rfl
@[simp] theorem Sio.withRxq_en (a : List Byte) : (u.withRxq a).en = u.en := rfl
@[simp] theorem Sio.withRxq_cr (a : List Byte) : (u.withRxq a).cr = u.cr := rfl
@[simp] theorem Sio.withRxq_mod0 (a : List Byte) : (u.withRxq a).mod0 = u.mod0 := rfl
@[simp] theorem Sio.withRxq_mod1 (a : List Byte) : (u.withRxq a).mod1 = u.mod1 := rfl
@[simp] theorem Sio.withRxq_mod2 (a : List Byte) : (u.withRxq a).mod2 = u.mod2 := rfl
@[simp] theorem Sio.withRxq_brcr (a : List Byte) : (u.withRxq a).brcr = u.brcr := rfl
@[simp] theorem Sio.withRxq_bradd (a : List Byte) : (u.withRxq a).bradd = u.bradd := rfl
@[simp] theorem Sio.withRxq_rfc (a : List Byte) : (u.withRxq a).rfc = u.rfc := rfl
@[simp] theorem Sio.withRxq_tfc (a : List Byte) : (u.withRxq a).tfc = u.tfc := rfl
@[simp] theorem Sio.withRxq_rst (a : List Byte) : (u.withRxq a).rst = u.rst := rfl
@[simp] theorem Sio.withRxq_fcnf (a : List Byte) : (u.withRxq a).fcnf = u.fcnf := rfl
@[simp] theorem Sio.withRxq_txSlot (a : List Byte) : (u.withRxq a).txSlot = u.txSlot := rfl
@[simp] theorem Sio.withRxq_rxSlot (a : List Byte) : (u.withRxq a).rxSlot = u.rxSlot := rfl
@[simp] theorem Sio.withRxq_txq (a : List Byte) : (u.withRxq a).txq = u.txq := rfl
@[simp] theorem Sio.withRxq_rxq (a : List Byte) : (u.withRxq a).rxq = a := rfl
@[simp] theorem Sio.withRxq_scheduled (a : List Byte) : (u.withRxq a).scheduled = u.scheduled := rfl
@[simp] theorem Sio.withScheduled_en (a : Bool) : (u.withScheduled a).en = u.en := rfl
@[simp] theorem Sio.withScheduled_cr (a : Bool) : (u.withScheduled a).cr = u.cr := rfl
@[simp] theorem Sio.withScheduled_mod0 (a : Bool) : (u.withScheduled a).mod0 = u.mod0 := rfl
@[simp] theorem Sio.withScheduled_mod1 (a : Bool) : (u.withScheduled a).mod1 = u.mod1 := rfl
@[simp] theorem Sio.withScheduled_mod2 (a : Bool) : (u.withScheduled a).mod2 = u.mod2 := rfl
@[simp] theorem Sio.withScheduled_brcr (a : Bool) : (u.withScheduled a).brcr = u.brcr := rfl
@[simp] theorem Sio.withScheduled_bradd (a : Bool) : (u.withScheduled a).bradd = u.bradd := rfl
@[simp] theorem Sio.withScheduled_rfc (a : Bool) : (u.withScheduled a).rfc = u.rfc := rfl
@[simp] theorem Sio.withScheduled_tfc (a : Bool) : (u.withScheduled a).tfc = u.tfc := rfl
@[simp] theorem Sio.withScheduled_rst (a : Bool) : (u.withScheduled a).rst = u.rst := rfl
@[simp] theorem Sio.withScheduled_fcnf (a : Bool) : (u.withScheduled a).fcnf = u.fcnf := rfl
@[simp] theorem Sio.withScheduled_txSlot (a : Bool) : (u.withScheduled a).txSlot = u.txSlot := rfl
@[simp] theorem Sio.withScheduled_rxSlot (a : Bool) : (u.withScheduled a).rxSlot = u.rxSlot := rfl
@[simp] theorem Sio.withScheduled_txq (a : Bool) : (u.withScheduled a).txq = u.txq := rfl
@[simp] theorem Sio.withScheduled_rxq (a : Bool) : (u.withScheduled a).rxq = u.rxq := rfl
@[simp] theorem Sio.withScheduled_scheduled (a : Bool) : (u.withScheduled a).scheduled = a := rfl

/-- Writing back what the SIO holds changes nothing. -/
@[simp] theorem State.withSio_self : s.withSio s.sio = s := rfl

/-- The later of two outputs stands. -/
@[simp] theorem State.withOut_withOut (o o' : Output) : (s.withOut o).withOut o' = s.withOut o' := rfl

/-- The later of two SIO states stands. -/
@[simp] theorem State.withSio_withSio (a b : Sio) : (s.withSio a).withSio b = s.withSio b := rfl

end Sys2Proof.Machine
end

