-- ==== Sys2Proof/Laws/Ops.lean ====
section
/-! SUPPORT. For each shared operation, once, everything it can do. -/

namespace Sys2Proof.Machine

variable (s t : State) (p : Params) (u : Sio) (v : Byte)

@[simp] theorem complete_params (a : Sio) (r : Result) (es : List Event) :
    (s.complete a r es).params = s.params := rfl
@[simp] theorem complete_rom (a : Sio) (r : Result) (es : List Event) : (s.complete a r es).rom = s.rom := rfl
@[simp] theorem complete_cfg (a : Sio) (r : Result) (es : List Event) : (s.complete a r es).cfg = s.cfg := rfl
@[simp] theorem complete_sio (a : Sio) (r : Result) (es : List Event) : (s.complete a r es).sio = a := rfl
@[simp] theorem complete_pending (a : Sio) (r : Result) (es : List Event) :
    (s.complete a r es).pending = s.pending := rfl
@[simp] theorem complete_out (a : Sio) (r : Result) (es : List Event) :
    (s.complete a r es).out = .done r es := rfl

/-- What a committed operation of the SIO leaves: its reply's effect, or the rejection and nothing else. -/
theorem commit_cases {x : Except Rejection Reply} (h : s.commit x = t) :
    (∃ r, x = .ok r ∧ t = s.complete r.sio r.result r.events) ∨ (∃ e, x = .error e ∧ t = s.withOut (.rejected e)) := by
  cases x with
  | ok r => exact .inl ⟨r, rfl, h.symm⟩
  | error e => exact .inr ⟨e, rfl, h.symm⟩

/-- Everything SEND can do (42_datapath.md R135). -/
theorem sendReply_cases :
    (u.en.sioe = false ∧ sendReply u v = .ok ⟨u, .dropped, [.log .sendDropped]⟩) ∨
    (u.en.sioe = true ∧ registers u = true ∧ baudValid u = false ∧ sendReply u v = .error (baudRejection u)) ∨
    (u.en.sioe = true ∧ registers u = true ∧ baudValid u = true ∧
      sendReply u v = .ok ⟨(acceptTx u v).withScheduled true, .accepted, [.sched]⟩) ∨
    (u.en.sioe = true ∧ registers u = false ∧ sendReply u v = .ok ⟨acceptTx u v, .accepted, []⟩) := by
  unfold sendReply
  cases u.en.sioe <;> cases registers u <;> cases baudValid u <;> simp

/-- Everything the path choice of SEND can do (42_datapath.md R137, R138). -/
theorem acceptTx_cases :
    (u.fcnf.cnfg = false ∧ acceptTx u v = (u.withTxSlot v).withMod2 { u.mod2 with tbe := false }) ∨
    (u.fcnf.cnfg = true ∧ acceptTx u v = u.withTxq (u.txq ++ [v])) := by
  unfold acceptTx
  cases u.fcnf.cnfg
  · exact .inl ⟨rfl, rfl⟩
  · exact .inr ⟨rfl, rfl⟩

/-- Everything RECEIVE can do (42_datapath.md R140). -/
theorem receiveReply_cases :
    (receivePermitted u = false ∧ receiveReply p u v = ⟨u, .dropped, [.log .recvDropped]⟩) ∨
    (receivePermitted u = true ∧ u.fcnf.cnfg = false ∧ u.mod2.rbf = true ∧
      receiveReply p u v = ⟨flagOverrun u, .overrun, []⟩) ∨
    (receivePermitted u = true ∧ u.fcnf.cnfg = false ∧ u.mod2.rbf = false ∧
      receiveReply p u v = ⟨setRbf (u.withRxSlot v) true, .accepted, rxIrqEvents p u⟩) ∨
    (receivePermitted u = true ∧ u.fcnf.cnfg = true ∧ usableCapacity p u ≤ u.rxq.length ∧
      receiveReply p u v = ⟨flagFifoOverrun (flagOverrun u), .overrun, []⟩) ∨
    (receivePermitted u = true ∧ u.fcnf.cnfg = true ∧ u.rxq.length < usableCapacity p u ∧
      rxHit p u (u.rxq.length + 1) = true ∧
      receiveReply p u v = ⟨autoDisableRx (u.withRxq (u.rxq ++ [v])), .accepted, rxIrqEvents p u⟩) ∨
    (receivePermitted u = true ∧ u.fcnf.cnfg = true ∧ u.rxq.length < usableCapacity p u ∧
      rxHit p u (u.rxq.length + 1) = false ∧
      receiveReply p u v = ⟨u.withRxq (u.rxq ++ [v]), .accepted, []⟩) := by
  unfold receiveReply receiveFifo receiveSlot
  by_cases h : usableCapacity p u ≤ u.rxq.length
  · cases receivePermitted u <;> cases u.fcnf.cnfg <;> cases u.mod2.rbf <;> simp [h]
  · cases receivePermitted u <;> cases u.fcnf.cnfg <;> cases u.mod2.rbf <;>
      cases rxHit p u (u.rxq.length + 1) <;> simp [h, Nat.lt_of_not_le h]

/-- Everything TakeTx can do (42_datapath.md R148). -/
theorem takeTx_cases :
    (u.fcnf.cnfg = false ∧ u.mod2.tbe = true ∧ takeTx p u = ⟨flagUnderrun u, none, false, [.log .txUnderrun]⟩) ∨
    (u.fcnf.cnfg = false ∧ u.mod2.tbe = false ∧ takeTx p u = ⟨setTbe u true, some u.txSlot, false, []⟩) ∨
    (u.fcnf.cnfg = true ∧ u.txq = [] ∧ takeTx p u = fifoUnderrun p u) ∨
    (u.fcnf.cnfg = true ∧ ∃ w q, u.txq = w :: q ∧ takeTx p u = popTxq p u w q) := by
  unfold takeTx takeSlot takeFifo
  cases u.fcnf.cnfg <;> cases u.mod2.tbe <;> cases h : u.txq <;> simp

/-- Everything the end of a tick can do (42_datapath.md R147). -/
theorem tickFinish_cases (k : Taken) :
    ((k.value = none ∨ k.txeCleared = true) ∧
      tickFinish k = ⟨k.sio.withScheduled false, .finished, tickEvents k⟩) ∨
    (k.txeCleared = false ∧ (∃ w, k.value = some w) ∧ tickFinish k = ⟨k.sio, .goOn, tickEvents k⟩) := by
  unfold tickFinish
  cases hv : k.value <;> cases hc : k.txeCleared <;> simp

/-- Everything TICK can do (42_datapath.md R147). -/
theorem tickReply_cases :
    (u.scheduled = false ∧ tickReply p u = .error (.reservedTransaction 0x42#8)) ∨
    (u.scheduled = true ∧ tickReply p u = .ok (tickFinish (takeTx p u))) := by
  unfold tickReply
  cases u.scheduled <;> simp

/-- Everything RD.BUF can do (41_register_access.md R102). -/
theorem readBuf_cases :
    (u.fcnf.cnfg = false ∧ u.mod2.rbf = true ∧ readBuf u = ⟨setRbf u false, .data u.rxSlot, []⟩) ∨
    (u.fcnf.cnfg = false ∧ u.mod2.rbf = false ∧ readBuf u = ⟨u, .noData, []⟩) ∨
    (u.fcnf.cnfg = true ∧ u.rxq = [] ∧ readBuf u = ⟨u, .noData, []⟩) ∨
    (u.fcnf.cnfg = true ∧ ∃ w q, u.rxq = w :: q ∧ readBuf u = ⟨u.withRxq q, .data w, []⟩) := by
  unfold readBuf
  cases u.fcnf.cnfg <;> cases u.mod2.rbf <;> cases h : u.rxq <;> simp

/-- Everything DEC.BUILD can do (40_decoder.md R87). -/
theorem build_cases (cfg : Word) :
    (cfg >>> s.params.layers.nalt = 0#16 ∧
      s.build cfg = ((s.withRom (romBuild s.params.layers cfg)).withCfg cfg).withOut (.done .ok [])) ∨
    (cfg >>> s.params.layers.nalt ≠ 0#16 ∧ s.build cfg = s.withOut (.rejected (.configError (.badLayerSelect cfg)))) := by
  unfold State.build
  by_cases h : cfg >>> s.params.layers.nalt = 0#16
  · exact .inl ⟨h, if_pos h⟩
  · exact .inr ⟨h, if_neg h⟩

/-- The SIO after a soft reset, field by field (41_register_access.md R114). -/
theorem softReset_eq :
    softReset u = (((u.withMod0 { u.mod0 with rxe := false }).withMod1 { u.mod1 with txe := false }).withMod2
      { u.mod2 with tbe := false, rbf := false, txrun := false }).withCr
      { u.cr with oerr := false, perr := false, ferr := false } := rfl

end Sys2Proof.Machine
end

