-- ==== Sys2Proof/Laws/Exec.lean ====
section
/-! SUPPORT. Every operation answers a next state, and none touches the parameters or the requests. -/

namespace Sys2Proof.Machine

/-- The state an operation leaves, when it is known to answer one. -/
theorem next_inj {a b : State} (h : (Host.Outcome.next a : Host.Outcome State Fault Refusal) = .next b) : a = b := by
  cases h; rfl

@[simp] theorem commit_params (s : State) (x : Except Rejection Reply) : (s.commit x).params = s.params := by
  cases x <;> rfl

@[simp] theorem commit_rom (s : State) (x : Except Rejection Reply) : (s.commit x).rom = s.rom := by
  cases x <;> rfl

@[simp] theorem commit_cfg (s : State) (x : Except Rejection Reply) : (s.commit x).cfg = s.cfg := by
  cases x <;> rfl

@[simp] theorem commit_pending (s : State) (x : Except Rejection Reply) : (s.commit x).pending = s.pending := by
  cases x <;> rfl

@[simp] theorem build_params (s : State) (c : Word) : (s.build c).params = s.params := by
  rcases build_cases s c with ⟨_, h⟩ | ⟨_, h⟩ <;> rw [h] <;> rfl

@[simp] theorem build_sio (s : State) (c : Word) : (s.build c).sio = s.sio := by
  rcases build_cases s c with ⟨_, h⟩ | ⟨_, h⟩ <;> rw [h] <;> rfl

@[simp] theorem build_pending (s : State) (c : Word) : (s.build c).pending = s.pending := by
  rcases build_cases s c with ⟨_, h⟩ | ⟨_, h⟩ <;> rw [h] <;> rfl

/-- No operation changes the parameters or the waiting requests. -/
theorem exec_keeps (i : Instr) {s t : State} (h : exec i s = .next t) :
    t.params = s.params ∧ t.pending = s.pending := by
  cases i <;> cases next_inj h <;> exact ⟨by simp [State.answer, State.reject], by simp [State.answer, State.reject]⟩

/-- A step performs the oldest request on the state without it, or idles. -/
theorem step_cases {s t : State} (h : step s = .next t) :
    (s.pending = [] ∧ t = s.withOut .idle) ∨
    (∃ q rest i, s.pending = q :: rest ∧ q.decode = .ok i ∧ exec i (s.withPending rest) = .next t) ∨
    (∃ q rest e, s.pending = q :: rest ∧ q.decode = .error e ∧
      t = (s.withPending rest).withOut (.rejected e)) := by
  unfold step at h
  split at h
  · exact .inl ⟨by assumption, (next_inj h).symm⟩
  · next q rest hp =>
    unfold perform at h
    split at h
    · next i hd => exact .inr (.inl ⟨q, rest, i, hp, hd, h⟩)
    · next e hd => exact .inr (.inr ⟨q, rest, e, hp, hd, (next_inj h).symm⟩)

end Sys2Proof.Machine
end

