-- ==== Sys2Proof/Laws/Layout.lean ====
section
/-! SUPPORT. The layouts: the fields found in an assembled byte, and what the masked store of a byte leaves in them. -/

namespace Sys2Proof.Machine

theorem bitvec1_cases (x : BitVec 1) : x = 0#1 ∨ x = 1#1 := by revert x; decide

/-- Fields read back from the byte assembled from them. -/
@[simp] theorem En.ofByte_toByte (r : En) : En.ofByte r.toByte = r := by
  rcases r with ⟨a⟩; revert a; decide

@[simp] theorem Cr.ofByte_toByte (r : Cr) : Cr.ofByte r.toByte = r := by
  rcases r with ⟨a, b, c, d⟩; revert a b c d; decide

@[simp] theorem Mod0.ofByte_toByte (r : Mod0) : Mod0.ofByte r.toByte = r := by
  rcases r with ⟨a, b⟩; revert a b; decide

@[simp] theorem Mod1.ofByte_toByte (r : Mod1) : Mod1.ofByte r.toByte = r := by
  rcases r with ⟨a, b, c⟩; revert a b c; decide

@[simp] theorem Mod2.ofByte_toByte (r : Mod2) : Mod2.ofByte r.toByte = r := by
  rcases r with ⟨a, b, c, d⟩; revert a b c d; decide

@[simp] theorem Brcr.ofByte_toByte (r : Brcr) : Brcr.ofByte r.toByte = r := by
  rcases r with ⟨a, b, c⟩; revert a b c; decide

@[simp] theorem Bradd.ofByte_toByte (r : Bradd) : Bradd.ofByte r.toByte = r := by
  rcases r with ⟨a⟩; revert a; decide

@[simp] theorem Rfc.ofByte_toByte (r : Rfc) : Rfc.ofByte r.toByte = r := by
  rcases r with ⟨a, b, c⟩; revert a b c; decide

@[simp] theorem Tfc.ofByte_toByte (r : Tfc) : Tfc.ofByte r.toByte = r := by
  rcases r with ⟨a, b, c⟩; revert a b c; decide

@[simp] theorem Fcnf.ofByte_toByte (r : Fcnf) : Fcnf.ofByte r.toByte = r := by
  rcases r with ⟨a, b, c, d⟩; revert a b c d; decide

/-- A bit of a masked store is the written bit inside the mask and the stored bit outside it. -/
theorem getLsbD_maskedStore (i : Reg) (cur v : Byte) (n : Nat) :
    (maskedStore i cur v).getLsbD n = if (wmask i).getLsbD n then v.getLsbD n else cur.getLsbD n := by
  cases hm : (wmask i).getLsbD n
  · by_cases h : n < 8
    · simp only [maskedStore, BitVec.getLsbD_or, BitVec.getLsbD_and, BitVec.getLsbD_not, hm, h]; simp
    · simp [BitVec.getLsbD_of_ge _ n (Nat.le_of_not_lt h)]
  · simp only [maskedStore, BitVec.getLsbD_or, BitVec.getLsbD_and, BitVec.getLsbD_not, hm]; simp

/-- A field that lies inside the mask is the written value's. -/
theorem extractLsb'_maskedStore (i : Reg) (cur v : Byte) (k n : Nat)
    (h : ∀ j < n, (wmask i).getLsbD (k + j) = true) :
    (maskedStore i cur v).extractLsb' k n = v.extractLsb' k n := by
  apply BitVec.eq_of_getLsbD_eq
  intro j hj
  simp only [BitVec.getLsbD_extractLsb', getLsbD_maskedStore, h j hj, if_true]

/-- What the masked store of each register leaves in its fields (41_register_access.md R100). -/
theorem En.ofByte_maskedStore (r : En) (v : Byte) : En.ofByte (maskedStore .en r.toByte v) = ⟨v.getLsbD 0⟩ := by
  simp only [En.ofByte, getLsbD_maskedStore]; rfl

theorem Cr.ofByte_maskedStore (r : Cr) (v : Byte) :
    Cr.ofByte (maskedStore .cr r.toByte v) = { r with ioc := v.getLsbD 0 } := by
  have h := Cr.ofByte_toByte r
  have h1 : r.toByte.getLsbD 4 = r.oerr := congrArg Cr.oerr h
  have h2 : r.toByte.getLsbD 3 = r.perr := congrArg Cr.perr h
  have h3 : r.toByte.getLsbD 2 = r.ferr := congrArg Cr.ferr h
  simp only [Cr.ofByte, getLsbD_maskedStore, h1, h2, h3]; rfl

theorem Mod0.ofByte_maskedStore (r : Mod0) (v : Byte) :
    Mod0.ofByte (maskedStore .mod0 r.toByte v) = ⟨v.getLsbD 5, v.extractLsb' 2 2⟩ := by
  simp only [Mod0.ofByte, getLsbD_maskedStore, extractLsb'_maskedStore .mod0 r.toByte v 2 2 (by decide)]; rfl

theorem Mod1.ofByte_maskedStore (r : Mod1) (v : Byte) :
    Mod1.ofByte (maskedStore .mod1 r.toByte v) = ⟨v.extractLsb' 5 2, v.getLsbD 4, v.extractLsb' 1 3⟩ := by
  simp only [Mod1.ofByte, getLsbD_maskedStore, extractLsb'_maskedStore .mod1 r.toByte v 5 2 (by decide),
    extractLsb'_maskedStore .mod1 r.toByte v 1 3 (by decide)]; rfl

theorem Mod2.ofByte_maskedStore (r : Mod2) (v : Byte) :
    Mod2.ofByte (maskedStore .mod2 r.toByte v) = { r with swrst := v.extractLsb' 0 2 } := by
  have h := Mod2.ofByte_toByte r
  have h1 : r.toByte.getLsbD 7 = r.tbe := congrArg Mod2.tbe h
  have h2 : r.toByte.getLsbD 6 = r.rbf := congrArg Mod2.rbf h
  have h3 : r.toByte.getLsbD 5 = r.txrun := congrArg Mod2.txrun h
  simp only [Mod2.ofByte, getLsbD_maskedStore, h1, h2, h3,
    extractLsb'_maskedStore .mod2 r.toByte v 0 2 (by decide)]; rfl

theorem Brcr.ofByte_maskedStore (r : Brcr) (v : Byte) :
    Brcr.ofByte (maskedStore .brcr r.toByte v) = ⟨v.getLsbD 6, v.extractLsb' 4 2, v.extractLsb' 0 4⟩ := by
  simp only [Brcr.ofByte, getLsbD_maskedStore, extractLsb'_maskedStore .brcr r.toByte v 4 2 (by decide),
    extractLsb'_maskedStore .brcr r.toByte v 0 4 (by decide)]; rfl

theorem Bradd.ofByte_maskedStore (r : Bradd) (v : Byte) :
    Bradd.ofByte (maskedStore .bradd r.toByte v) = ⟨v.extractLsb' 0 4⟩ := by
  simp only [Bradd.ofByte, extractLsb'_maskedStore .bradd r.toByte v 0 4 (by decide)]

theorem Rfc.ofByte_maskedStore (r : Rfc) (v : Byte) :
    Rfc.ofByte (maskedStore .rfc r.toByte v) = ⟨v.getLsbD 7, v.getLsbD 6, v.extractLsb' 0 2⟩ := by
  simp only [Rfc.ofByte, getLsbD_maskedStore, extractLsb'_maskedStore .rfc r.toByte v 0 2 (by decide)]; rfl

theorem Tfc.ofByte_maskedStore (r : Tfc) (v : Byte) :
    Tfc.ofByte (maskedStore .tfc r.toByte v) = ⟨v.getLsbD 7, v.getLsbD 6, v.extractLsb' 0 2⟩ := by
  simp only [Tfc.ofByte, getLsbD_maskedStore, extractLsb'_maskedStore .tfc r.toByte v 0 2 (by decide)]; rfl

theorem Fcnf.ofByte_maskedStore (r : Fcnf) (v : Byte) :
    Fcnf.ofByte (maskedStore .fcnf r.toByte v) = ⟨v.getLsbD 4, v.getLsbD 2, v.getLsbD 1, v.getLsbD 0⟩ := by
  simp only [Fcnf.ofByte, getLsbD_maskedStore]; rfl

/-- A level field is min(length, 7). -/
theorem level_toNat (q : List Byte) : (level q).toNat = min q.length 7 := by
  simp only [level, BitVec.toNat_ofNat]; omega

end Sys2Proof.Machine
end

