-- ==== Sys2Proof/Laws/PerInstr.lean ====
section
/-! SUPPORT. What holds of every instruction as syntax, constructor by constructor. -/

namespace Sys2Proof.Laws

open Machine

/-- The tag of an encoded operation names its port in its top two bits (30_encoding.md R67); a bare instruction word has
no tag and arrives at the decoder port. -/
def PortBits.Statement (i : Instr) : Prop :=
  match encode i with
  | .txn w => (txnTag w).extractLsb' 6 2 = portCode i.port
  | .word _ => i.port = .decoder
  | _ => False

theorem PortBits.rdEn : Statement .rdEn := by
  simp only [Statement, encode, txnTag_mkTxn]; rfl
theorem PortBits.wrEn (v : Byte) : Statement (.wrEn v) := by
  simp only [Statement, encode, txnTag_mkTxn]; rfl
theorem PortBits.rdBuf : Statement .rdBuf := by
  simp only [Statement, encode, txnTag_mkTxn]; rfl
theorem PortBits.wrBuf (v : Byte) : Statement (.wrBuf v) := by
  simp only [Statement, encode, txnTag_mkTxn]; rfl
theorem PortBits.rdCr : Statement .rdCr := by
  simp only [Statement, encode, txnTag_mkTxn]; rfl
theorem PortBits.wrCr (v : Byte) : Statement (.wrCr v) := by
  simp only [Statement, encode, txnTag_mkTxn]; rfl
theorem PortBits.rdMod0 : Statement .rdMod0 := by
  simp only [Statement, encode, txnTag_mkTxn]; rfl
theorem PortBits.wrMod0 (v : Byte) : Statement (.wrMod0 v) := by
  simp only [Statement, encode, txnTag_mkTxn]; rfl
theorem PortBits.rdBrcr : Statement .rdBrcr := by
  simp only [Statement, encode, txnTag_mkTxn]; rfl
theorem PortBits.wrBrcr (v : Byte) : Statement (.wrBrcr v) := by
  simp only [Statement, encode, txnTag_mkTxn]; rfl
theorem PortBits.rdBradd : Statement .rdBradd := by
  simp only [Statement, encode, txnTag_mkTxn]; rfl
theorem PortBits.wrBradd (v : Byte) : Statement (.wrBradd v) := by
  simp only [Statement, encode, txnTag_mkTxn]; rfl
theorem PortBits.rdMod1 : Statement .rdMod1 := by
  simp only [Statement, encode, txnTag_mkTxn]; rfl
theorem PortBits.wrMod1 (v : Byte) : Statement (.wrMod1 v) := by
  simp only [Statement, encode, txnTag_mkTxn]; rfl
theorem PortBits.rdMod2 : Statement .rdMod2 := by
  simp only [Statement, encode, txnTag_mkTxn]; rfl
theorem PortBits.wrMod2 (v : Byte) : Statement (.wrMod2 v) := by
  simp only [Statement, encode, txnTag_mkTxn]; rfl
theorem PortBits.rdRfc : Statement .rdRfc := by
  simp only [Statement, encode, txnTag_mkTxn]; rfl
theorem PortBits.wrRfc (v : Byte) : Statement (.wrRfc v) := by
  simp only [Statement, encode, txnTag_mkTxn]; rfl
theorem PortBits.rdTfc : Statement .rdTfc := by
  simp only [Statement, encode, txnTag_mkTxn]; rfl
theorem PortBits.wrTfc (v : Byte) : Statement (.wrTfc v) := by
  simp only [Statement, encode, txnTag_mkTxn]; rfl
theorem PortBits.rdRst : Statement .rdRst := by
  simp only [Statement, encode, txnTag_mkTxn]; rfl
theorem PortBits.wrRst (v : Byte) : Statement (.wrRst v) := by
  simp only [Statement, encode, txnTag_mkTxn]; rfl
theorem PortBits.rdTst : Statement .rdTst := by
  simp only [Statement, encode, txnTag_mkTxn]; rfl
theorem PortBits.wrTst (v : Byte) : Statement (.wrTst v) := by
  simp only [Statement, encode, txnTag_mkTxn]; rfl
theorem PortBits.rdFcnf : Statement .rdFcnf := by
  simp only [Statement, encode, txnTag_mkTxn]; rfl
theorem PortBits.wrFcnf (v : Byte) : Statement (.wrFcnf v) := by
  simp only [Statement, encode, txnTag_mkTxn]; rfl
theorem PortBits.send (v : Byte) : Statement (.send v) := by
  simp only [Statement, encode, txnTag_mkTxn]; rfl
theorem PortBits.receive (v : Byte) : Statement (.receive v) := by
  simp only [Statement, encode, txnTag_mkTxn]; rfl
theorem PortBits.tick : Statement .tick := by
  simp only [Statement, encode, txnTag_mkTxn]; rfl
theorem PortBits.freq : Statement .freq := by
  simp only [Statement, encode, txnTag_mkTxn]; rfl
theorem PortBits.decLookup (w : Word) : Statement (.decLookup w) := by
  simp only [Statement, encode, txnTag_mkTxn]; rfl
theorem PortBits.decBuild (c : Word) : Statement (.decBuild c) := by
  simp only [Statement, encode, txnTag_mkTxn]; rfl
theorem PortBits.unknown (w : Word) : Statement (.unknown w) := rfl

end Sys2Proof.Laws
end

