-- ==== Sys2Proof/Laws/Rom.lean ====
section
/-! SUPPORT. The ROM: read after write, the canonical form kept by every operation, and what applying a descriptor
leaves in a slot. -/

namespace Sys2Proof.Machine

/-- A slot below all those listed reads as the catch-all's reference. -/
theorem romRead_below {lo : Nat} {t : Rom} (h : romWfFrom lo t = true) {y : Nat} (hy : y < lo) :
    romRead t y = 0 := by
  induction t generalizing lo with
  | nil => rfl
  | cons c t ih =>
    obtain ⟨x, q⟩ := c
    simp only [romWfFrom, Bool.and_eq_true, decide_eq_true_eq] at h
    have hne : ¬ y = x := by omega
    simp only [romRead, hne, if_false]
    exact ih h.2 (by omega)

/-- A slot written reads as written; every other slot reads as before. -/
theorem romRead_romWrite {lo : Nat} {t : Rom} (h : romWfFrom lo t = true) (a r b : Nat) :
    romRead (romWrite t a r) b = if b = a then r else romRead t b := by
  induction t generalizing lo with
  | nil => by_cases hr : r = 0 <;> simp [romWrite, romRead, hr]
  | cons c t ih =>
    obtain ⟨x, q⟩ := c
    simp only [romWfFrom, Bool.and_eq_true, decide_eq_true_eq] at h
    have below : ∀ (y : Nat), y ≤ x → romRead t y = 0 := fun y hy => romRead_below h.2 (by omega)
    unfold romWrite
    by_cases h1 : a < x
    · by_cases hr : r = 0
      · by_cases hb : b = a
        · have hne : ¬ a = x := by omega
          simp [romRead, h1, hr, hb, hne, below a (by omega)]
        · simp [romRead, h1, hr, hb]
      · simp [romRead, h1, hr]
    · by_cases h2 : a = x
      · by_cases hr : r = 0
        · by_cases hb : b = a
          · simp [h2, hr, hb, below x (le_refl x)]
          · have hb' : ¬ b = x := by omega
            simp [romRead, h2, hr, hb']
        · by_cases hb : b = a <;> simp_all [romRead]
      · by_cases hb : b = x
        · have : ¬ b = a := by omega
          have hxa : ¬ x = a := by omega
          simp [romRead, h1, h2, hb, hxa]
        · simp [romRead, h1, h2, hb, ih h.2]
/-- The canonical form from a slot on holds from any earlier slot on. -/
theorem romWfFrom_mono {lo lo' : Nat} {t : Rom} (h : romWfFrom lo t = true) (hle : lo' ≤ lo) :
    romWfFrom lo' t = true := by
  cases t with
  | nil => rfl
  | cons c t =>
    simp only [romWfFrom, Bool.and_eq_true, decide_eq_true_eq] at h ⊢
    exact ⟨⟨⟨by omega, h.1.1.2⟩, h.1.2⟩, h.2⟩

/-- A write to a slot keeps the canonical form. -/
theorem romWrite_wfFrom {lo : Nat} {t : Rom} (h : romWfFrom lo t = true) {a : Nat} (r : Nat) (hlo : lo ≤ a)
    (ha : a < Config.romSlots) : romWfFrom lo (romWrite t a r) = true := by
  induction t generalizing lo with
  | nil => by_cases hr : r = 0 <;> simp [romWrite, romWfFrom, hr, hlo, ha]
  | cons c t ih =>
    obtain ⟨x, q⟩ := c
    have h0 := h
    simp only [romWfFrom, Bool.and_eq_true, decide_eq_true_eq] at h
    unfold romWrite
    by_cases h1 : a < x
    · by_cases hr : r = 0
      · simpa [h1, hr] using h0
      · have : a + 1 ≤ x := h1
        simp [h1, hr, romWfFrom, hlo, ha, this, h.1.1.2, h.1.2, h.2]
    · by_cases h2 : a = x
      · by_cases hr : r = 0
        · simpa [h2, hr] using romWfFrom_mono h.2 (by omega)
        · subst h2
          simp [hr, romWfFrom, hlo, ha, h.2]
      · simp [h1, h2, romWfFrom, h.1.1.1, h.1.1.2, h.1.2, ih h.2 (by omega)]

/-- A write to a slot keeps the canonical form. -/
theorem romWrite_wf {t : Rom} (h : romWf t = true) {a : Nat} (r : Nat) (ha : a < Config.romSlots) :
    romWf (romWrite t a r) = true := romWrite_wfFrom h r (Nat.zero_le a) ha

/-- Two tables in canonical form that read alike in every slot are equal. -/
theorem rom_ext {lo : Nat} {t t' : Rom} (h : romWfFrom lo t = true) (h' : romWfFrom lo t' = true)
    (hr : ∀ a, romRead t a = romRead t' a) : t = t' := by
  induction t generalizing lo t' with
  | nil =>
    cases t' with
    | nil => rfl
    | cons c t' =>
      obtain ⟨x, q⟩ := c
      simp only [romWfFrom, Bool.and_eq_true, decide_eq_true_eq] at h'
      exact absurd (by simpa [romRead] using (hr x).symm) h'.1.2
  | cons c t ih =>
    obtain ⟨x, q⟩ := c
    simp only [romWfFrom, Bool.and_eq_true, decide_eq_true_eq] at h
    cases t' with
    | nil => exact absurd (by simpa [romRead] using hr x) h.1.2
    | cons c' t' =>
      obtain ⟨y, p⟩ := c'
      simp only [romWfFrom, Bool.and_eq_true, decide_eq_true_eq] at h'
      have hxy : x = y := by
        rcases Nat.lt_trichotomy x y with hlt | heq | hgt
        · have := hr x
          have hne : ¬ x = y := by omega
          simp only [romRead, if_true, hne, if_false] at this
          rw [romRead_below h'.2 (by omega)] at this
          exact absurd this h.1.2
        · exact heq
        · have := hr y
          have hne : ¬ y = x := by omega
          simp only [romRead, if_true, hne, if_false] at this
          rw [romRead_below h.2 (by omega)] at this
          exact absurd this.symm h'.1.2
      subst hxy
      have hq : q = p := by simpa [romRead] using hr x
      subst hq
      have ht : t = t' := by
        refine ih h.2 h'.2 fun a => ?_
        by_cases ha : a = x
        · rw [romRead_below h.2 (by omega), romRead_below h'.2 (by omega)]
        · simpa [romRead, ha] using hr a
      rw [ht]

/-- Every word `slotWords` lists extends its prefix by `n` bits. -/
theorem slotWords_bounds {n e m acc w : Nat} (h : w ∈ slotWords n e m acc) :
    acc * 2 ^ n ≤ w ∧ w < (acc + 1) * 2 ^ n := by
  induction n generalizing acc with
  | zero => simp only [slotWords, List.mem_singleton] at h; subst h; omega
  | succ n ih =>
    have step : ∀ {b : Nat}, (b = 2 * acc ∨ b = 2 * acc + 1) → w ∈ slotWords n e m b →
        acc * 2 ^ (n + 1) ≤ w ∧ w < (acc + 1) * 2 ^ (n + 1) := by
      intro b hb hw
      have := ih hw
      rw [pow_succ]
      rcases hb with rfl | rfl <;> constructor <;> nlinarith [this.1, this.2, Nat.two_pow_pos n]
    unfold slotWords at h
    split at h
    · exact step (.inr rfl) h
    · split at h
      · exact step (.inl rfl) h
      · rcases List.mem_append.mp h with h | h
        · exact step (.inl rfl) h
        · exact step (.inr rfl) h

/-- Every claimed slot is one of the 65,536. -/
theorem claimedSlots_lt {d : Descriptor} {w : Nat} (h : w ∈ claimedSlots d) : w < Config.romSlots := by
  have := (slotWords_bounds h).2
  simpa [Config.romSlots] using this

/-- The writes of one `apply`: the listed slots take the reference, the others are kept, and the form is kept. -/
theorem foldr_romWrite {t : Rom} (h : romWf t = true) (r : Nat) {ws : List Nat}
    (hw : ∀ w ∈ ws, w < Config.romSlots) :
    romWf (ws.foldr (fun w acc => romWrite acc w r) t) = true ∧
      ∀ b, romRead (ws.foldr (fun w acc => romWrite acc w r) t) b = if b ∈ ws then r else romRead t b := by
  induction ws with
  | nil => exact ⟨h, fun b => by simp⟩
  | cons w ws ih =>
    obtain ⟨hwf, hrd⟩ := ih fun x hx => hw x (List.mem_cons_of_mem _ hx)
    refine ⟨romWrite_wf hwf r (hw w List.mem_cons_self), fun b => ?_⟩
    rw [List.foldr_cons, romRead_romWrite hwf, hrd]
    by_cases h1 : b = w <;> by_cases h2 : b ∈ ws <;> simp [h1, h2]

/-- Applying a descriptor keeps the canonical form. -/
theorem romApply_wf {t : Rom} (h : romWf t = true) (e : Entry) : romWf (romApply t e) = true :=
  (foldr_romWrite h e.1 fun _ hw => claimedSlots_lt hw).1

/-- After `apply(T, d)` the claimed slots hold the reference and every other slot what it held (40_decoder.md R88). -/
theorem romRead_romApply {t : Rom} (h : romWf t = true) (e : Entry) (b : Nat) :
    romRead (romApply t e) b = if b ∈ claimedSlots e.2 then e.1 else romRead t b :=
  (foldr_romWrite h e.1 fun _ hw => claimedSlots_lt hw).2 b

/-- Applying a sequence of descriptors keeps the canonical form. -/
theorem foldl_romApply_wf {t : Rom} (h : romWf t = true) (es : List Entry) :
    romWf (es.foldl romApply t) = true := by
  induction es generalizing t with
  | nil => exact h
  | cons e es ih => exact ih (romApply_wf h e)

/-- Every table DEC.BUILD computes is in canonical form. -/
theorem romBuild_wf (L : Layers) (cfg : Word) : romWf (romBuild L cfg) = true :=
  foldl_romApply_wf rfl _

/-- The entries of a numbered layer: the descriptor at position `j` has reference `n + j` (10_state.md R14). -/
theorem mem_numberLayer {n k : Nat} {d : Descriptor} {ds : List Descriptor} :
    (k, d) ∈ numberLayer n ds ↔ ∃ j : Nat, ds[j]? = some d ∧ k = n + j := by
  induction ds generalizing n with
  | nil => simp [numberLayer]
  | cons a ds ih =>
    simp only [numberLayer, List.mem_cons, Prod.mk.injEq, ih]
    constructor
    · rintro (⟨rfl, rfl⟩ | ⟨j, hj, rfl⟩)
      · exact ⟨0, rfl, rfl⟩
      · exact ⟨j + 1, hj, by omega⟩
    · rintro ⟨j, hj, rfl⟩
      cases j with
      | zero => exact .inl ⟨rfl, (Option.some.inj hj).symm⟩
      | succ j => exact .inr ⟨j, hj, by omega⟩

/-- The entries of the enabled layers: those of each enabled layer, numbered after every descriptor of the layers before
it, enabled or not (10_state.md R14, 40_decoder.md R87). -/
theorem mem_enabledEntries {cfg : Word} {i n k : Nat} {d : Descriptor} {ls : List (List Descriptor)} :
    (k, d) ∈ enabledEntries cfg i (numberAlts n ls) ↔ ∃ (a j : Nat) (l : List Descriptor),
      cfg.getLsbD (i + a) = true ∧ ls[a]? = some l ∧ l[j]? = some d ∧ k = n + (ls.take a).flatten.length + j := by
  induction ls generalizing i n with
  | nil => simp [numberAlts, enabledEntries]
  | cons l ls ih =>
    simp only [numberAlts, enabledEntries, List.mem_append, ih]
    constructor
    · rintro (h | ⟨a, j, m, hc, hm, hj, rfl⟩)
      · split at h
        · obtain ⟨j, hj, rfl⟩ := mem_numberLayer.mp h
          exact ⟨0, j, l, by assumption, rfl, hj, by simp⟩
        · cases h
      · exact ⟨a + 1, j, m, by rwa [← Nat.add_assoc, Nat.add_right_comm], hm, hj, by simp; omega⟩
    · rintro ⟨a, j, m, hc, hm, hj, rfl⟩
      cases a with
      | zero =>
        cases hm
        exact .inl (by rw [if_pos (by simpa using hc)]; exact mem_numberLayer.mpr ⟨j, hj, by simp⟩)
      | succ a => exact .inr ⟨a, j, m, by rwa [Nat.add_right_comm, Nat.add_assoc], hm, hj, by simp; omega⟩

/-- Writing reference 0 into a table that lists nothing leaves it so: the catch-all layer, applied slot by slot to the
blank table, yields the blank table, so `romBlank` is the table `L0` leaves (40_decoder.md R85). -/
theorem romApply_catchAll : romApply romBlank (0, unknownDesc) = romBlank := by
  have : ∀ ws : List Nat, ws.foldr (fun w acc => romWrite acc w 0) romBlank = romBlank := by
    intro ws
    induction ws with
    | nil => rfl
    | cons w ws ih => simp [List.foldr_cons, ih]; rfl
  exact this _

end Sys2Proof.Machine
end

