-- ==== Sys2Proof/Tests/Slice0.lean ====
section
/-! SUPPORT. Tests: the checks of WellFormed refuse ill-formed terms; spec words decode; one-step vectors of
95_test_vectors.md; for every obligation with hypotheses, states and operands that meet them. Expected values are the
spec's; the vector each comes from is named. -/

namespace Sys2Proof.Tests

open Sys2Proof Sys2Proof.Machine

/-- `FIX.BASE` of 95_test_vectors.md section 2.1. -/
def descA : Descriptor := ⟨0x1700, 0xFF00, .f2, 0, 0, "LDX", "a", "x", .none, false, false⟩
def descB : Descriptor := ⟨0x1780, 0xFFF0, .f3, 1, 0, "LDI", "b", "y", .none, false, false⟩
def descC : Descriptor := ⟨0x9F80, 0xFFFF, .f4, 1, 1, "JMPL", "c", "z", .jmp, false, true⟩

/-- `FIX.ALT[1]` and `FIX.ALT[2]`. -/
def descP : Descriptor := ⟨0x1700, 0xFFF0, .f2, 0, 0, "PUSHX", "p", "x", .none, false, false⟩
def descQ : Descriptor := ⟨0x1708, 0xFFF8, .f2, 0, 0, "POPX", "q", "x", .none, false, false⟩

def fixLayers : Layers := ⟨[descA, descB, descC], [[descP], [descQ]]⟩

/-- The parameter values of 95_test_vectors.md section 0; the interrupt numbers are any. -/
def fixParams : Params := Config.defaults fixLayers #v[24000000, 6000000, 1500000, 375000] 100 200

/-- The same with an empty ROM content, so that the table is blank. -/
def blankParams : Params := Config.defaults ⟨[], []⟩ #v[24000000, 6000000, 1500000, 375000] 100 200

/-- The reset registers with known slots. -/
def base : Sio := (Sio.reset.withTxSlot 0xEE).withRxSlot 0xDD

/-- A state under the parameters of the vectors. -/
def fixState (u : Sio) : State where
  params := fixParams
  rom := romBuild fixLayers 0
  cfg := 0
  sio := u
  pending := []
  out := .idle

/-- A state with a blank ROM. -/
def blank (u : Sio) : State where
  params := blankParams
  rom := []
  cfg := 0
  sio := u
  pending := []
  out := .idle

/-- The registers a vector sets: `EN`, `MOD0`, `MOD1`, `FCNF`. -/
def unit (en mod0 mod1 fcnf : Byte) : Sio :=
  (((base.withEn (.ofByte en)).withMod0 (.ofByte mod0)).withMod1 (.ofByte mod1)).withFcnf (.ofByte fcnf)

def outOf (i : Instr) (s : State) : Output :=
  match exec i s with
  | .next t => t.out
  | _ => .idle

def sioOf (i : Instr) (s : State) : Sio :=
  match exec i s with
  | .next t => t.sio
  | _ => s.sio

def byteOf (i : Instr) (s : State) (r : Reg) : Option Byte := regView (sioOf i s) r

def refOf (i : Instr) (s : State) : Option Nat :=
  match outOf i s with
  | .done (.descriptor k _) _ => some k
  | _ => none

/-! ### WellFormed refuses -/

/-- The ill-formed pattern of T-DEC-23. -/
theorem test_wf_pattern_refused : Descriptor.wf { descA with encoding := 0x00F1, mask := 0xFFF0 } = false := by decide
theorem test_wf_pattern_accepted : Descriptor.wf descA = true := by decide
theorem test_wf_layers_refused : Layers.wf ⟨[descA], [[{ descP with encoding := 0x00F1 }]]⟩ = false := by decide
theorem test_wf_layers_accepted : Layers.wf fixLayers = true := by decide
/-- T-DEC-15. -/
theorem test_wf_select_refused : selectsExisting 2 0x0004 = false := by decide
theorem test_wf_rxqCap_zero_refused : Params.wf { blankParams with rxqCap := 0 } = false := by decide
theorem test_wf_rxqCap_eight_refused : Params.wf { blankParams with rxqCap := 8 } = false := by decide
theorem test_wf_txqCap_zero_refused : Params.wf { blankParams with txqCap := 0 } = false := by decide
theorem test_wf_txqCap_eight_refused : Params.wf { blankParams with txqCap := 8 } = false := by decide
/-- The default table holds 4, more than a capacity of 3. -/
theorem test_wf_rxThr_refused : Params.wf { blankParams with rxqCap := 3 } = false := by decide
theorem test_wf_cfg0_refused : Params.wf { fixParams with cfg0 := 0x0004 } = false := by decide
theorem test_wf_nalt_refused :
    Params.wf { blankParams with layers := ⟨[], List.replicate 17 []⟩ } = false := by decide
theorem test_wf_params_accepted : Params.wf fixParams = true := by decide
theorem test_wf_request_refused : Request.wf (.txn 0x0D0000) = false := by decide
theorem test_wf_access_size_refused : Request.wf (.memRead 4 2) = false := by decide
theorem test_wf_access_offset_refused : Request.wf (.memWrite 5 1 0) = false := by decide
theorem test_wf_request_accepted : Request.wf (.memRead 48 1) = true := by decide

/-! ### Words written out from 30_encoding.md R67, as the vectors spell them, decode -/

theorem test_decode_rdEn : decodeTableWord 24 0x000000 = some .rdEn := rfl
theorem test_decode_wrEn : decodeTableWord 24 0x1000FF = some (.wrEn 0xFF) := rfl
theorem test_decode_rdBuf : decodeTableWord 24 0x010000 = some .rdBuf := rfl
theorem test_decode_wrBuf : decodeTableWord 24 0x11005A = some (.wrBuf 0x5A) := rfl
theorem test_decode_rdCr : decodeTableWord 24 0x020000 = some .rdCr := rfl
theorem test_decode_wrCr : decodeTableWord 24 0x120001 = some (.wrCr 0x01) := rfl
theorem test_decode_rdMod0 : decodeTableWord 24 0x030000 = some .rdMod0 := rfl
theorem test_decode_wrMod0 : decodeTableWord 24 0x130020 = some (.wrMod0 0x20) := rfl
theorem test_decode_rdBrcr : decodeTableWord 24 0x040000 = some .rdBrcr := rfl
theorem test_decode_wrBrcr : decodeTableWord 24 0x140004 = some (.wrBrcr 0x04) := rfl
theorem test_decode_rdBradd : decodeTableWord 24 0x050000 = some .rdBradd := rfl
theorem test_decode_wrBradd : decodeTableWord 24 0x150008 = some (.wrBradd 0x08) := rfl
theorem test_decode_rdMod1 : decodeTableWord 24 0x060000 = some .rdMod1 := rfl
theorem test_decode_wrMod1 : decodeTableWord 24 0x160050 = some (.wrMod1 0x50) := rfl
theorem test_decode_rdMod2 : decodeTableWord 24 0x070000 = some .rdMod2 := rfl
theorem test_decode_wrMod2 : decodeTableWord 24 0x1700FD = some (.wrMod2 0xFD) := rfl
theorem test_decode_rdRfc : decodeTableWord 24 0x080000 = some .rdRfc := rfl
theorem test_decode_wrRfc : decodeTableWord 24 0x180082 = some (.wrRfc 0x82) := rfl
theorem test_decode_rdTfc : decodeTableWord 24 0x090000 = some .rdTfc := rfl
theorem test_decode_wrTfc : decodeTableWord 24 0x190041 = some (.wrTfc 0x41) := rfl
theorem test_decode_rdRst : decodeTableWord 24 0x0A0000 = some .rdRst := rfl
theorem test_decode_wrRst : decodeTableWord 24 0x1A0000 = some (.wrRst 0x00) := rfl
theorem test_decode_rdTst : decodeTableWord 24 0x0B0000 = some .rdTst := rfl
theorem test_decode_wrTst : decodeTableWord 24 0x1B00FF = some (.wrTst 0xFF) := rfl
theorem test_decode_rdFcnf : decodeTableWord 24 0x0C0000 = some .rdFcnf := rfl
theorem test_decode_wrFcnf : decodeTableWord 24 0x1C0015 = some (.wrFcnf 0x15) := rfl
theorem test_decode_send : decodeTableWord 24 0x400055 = some (.send 0x55) := rfl
theorem test_decode_receive : decodeTableWord 24 0x410041 = some (.receive 0x41) := rfl
theorem test_decode_tick : decodeTableWord 24 0x420000 = some .tick := rfl
theorem test_decode_freq : decodeTableWord 24 0x430000 = some .freq := rfl
theorem test_decode_decLookup : decodeTableWord 24 0x8017FF = some (.decLookup 0x17FF) := rfl
theorem test_decode_decBuild : decodeTableWord 24 0x810003 = some (.decBuild 0x0003) := rfl
/-- A bare word, log 10. -/
theorem test_decode_unknown : decodeTableWord 16 0x9F81 = some (.unknown 0x9F81) := rfl
/-- `data[15:8]` is ignored, R66. -/
theorem test_decode_ignored_bits : decodeTableWord 24 0x10AB01 = some (.wrEn 0x01) := rfl
theorem test_decode_sel13_refused : decodeTxn 0x0D0000 = .error (.unmappedRegister 13) := rfl
theorem test_decode_sel15_refused : decodeTxn 0x1F0000 = .error (.unmappedRegister 15) := rfl
theorem test_decode_tag20_refused : decodeTxn 0x200000 = .error (.reservedTransaction 0x20) := rfl
theorem test_decode_tag44_refused : decodeTxn 0x440000 = .error (.reservedTransaction 0x44) := rfl
theorem test_decode_tag82_refused : decodeTxn 0x820000 = .error (.reservedTransaction 0x82) := rfl
/-- Offset 48 is `FCNF`, R48. -/
theorem test_decode_access : (Request.memWrite 48 1 0x15).decode = .ok (.wrFcnf 0x15) := rfl
theorem test_encode_send : encode (.send 0x55) = .txn 0x400055 := rfl

/-! ### The codes of 30_encoding.md R64, R65, R67, R70 and 60_exceptions.md R166 to R169 -/

theorem test_code_flow : flowCode .interruptEnable = 6 := rfl
theorem test_code_format : formatCode .f7 = 7 := rfl
theorem test_code_wmask :
    regList.map wmask = [0x01, 0x00, 0x01, 0x2C, 0x7F, 0x0F, 0x7E, 0x03, 0xC3, 0xC3, 0x00, 0x00, 0x17] := rfl
theorem test_code_offsets : regList.map regOffset = [0, 4, 8, 12, 16, 20, 24, 28, 32, 36, 40, 44, 48] := rfl
theorem test_code_rejections :
    [rejectionCode (.configError (.badLayerSelect 4)), rejectionCode (.readOnlyWrite 10), rejectionCode (.unmappedRegister 13),
      rejectionCode (.reservedTransaction 0x42)] = [1, 2, 3, 4] := rfl
theorem test_code_causes : (configSubcode (.baudRate true 1 8), configSubcode (.badLayerSelect 4)) = (1, 2) := rfl
/-- Section 2.2: `C` is 3 words. -/
theorem test_length_jmpl : instrLength descC = 3 := rfl
/-- T-RCV-7. -/
theorem test_rxThr_full_duplex : rxThreshold fixParams (unit 0x01 0x20 0x60 0x05) = 2 := rfl
/-- T-TCK-5. -/
theorem test_txThr_full_duplex : txThreshold fixParams ((unit 0x01 0x00 0x70 0x01).withTfc (.ofByte 0x02)) = 0 := rfl

/-! ### One-step vectors -/

/-- P3, line 18. -/
theorem test_rdEn : outOf .rdEn (blank (unit 0x01 0 0 0)) = .done (.value 0x01) [] := by decide
/-- T-REG-10. -/
theorem test_wrEn : byteOf (.wrEn 0xFF) (blank base) .en = some 0x01 := by decide
/-- P2, line 15. -/
theorem test_rdBuf_queue :
    outOf .rdBuf (blank ((unit 0x01 0x20 0x20 0x05).withRxq [0x41, 0x42])) = .done (.data 0x41) [] := by decide
/-- T-REG-1. -/
theorem test_rdBuf_none : outOf .rdBuf (blank base) = .done .noData [] := by decide
/-- T-SND-6. -/
theorem test_wrBuf_preload :
    ((sioOf (.wrBuf 0x5A) (blank base)).txSlot, byteOf (.wrBuf 0x5A) (blank base) .mod2) = (0x5A, some 0x80) := by decide
/-- P1, line 4. -/
theorem test_wrBuf_sends : outOf (.wrBuf 0x55) (blank (unit 0x01 0 0x50 0)) = .done .ok [.sched] := by decide
/-- T-REG-40. -/
theorem test_rdCr :
    (outOf .rdCr (blank (base.withCr (.ofByte 0x11))), byteOf .rdCr (blank (base.withCr (.ofByte 0x11))) .cr)
      = (.done (.value 0x11) [], some 0x01) := by decide
/-- T-REG-40. -/
theorem test_wrCr : byteOf (.wrCr 0xFF) (blank (base.withCr (.ofByte 0x10))) .cr = some 0x11 := by decide
/-- T-REG-12. -/
theorem test_rdMod0 : outOf .rdMod0 (blank (unit 0 0x2C 0 0)) = .done (.value 0x2C) [] := by decide
/-- T-REG-12. -/
theorem test_wrMod0 :
    (byteOf (.wrMod0 0xFF) (blank base) .mod0, outOf (.wrMod0 0xFF) (blank base))
      = (some 0x2C, .done .ok [.log .uartModeUnimplemented]) := by decide
/-- T-REG-13. -/
theorem test_rdBrcr : outOf .rdBrcr (blank (base.withBrcr (.ofByte 0x7F))) = .done (.value 0x7F) [] := by decide
/-- T-REG-13. -/
theorem test_wrBrcr : byteOf (.wrBrcr 0xFF) (blank base) .brcr = some 0x7F := by decide
/-- T-REG-14. -/
theorem test_rdBradd : outOf .rdBradd (blank (base.withBradd (.ofByte 0x0F))) = .done (.value 0x0F) [] := by decide
/-- T-REG-14. -/
theorem test_wrBradd : byteOf (.wrBradd 0xFF) (blank base) .bradd = some 0x0F := by decide
/-- P4, line 12. -/
theorem test_rdMod1 : outOf .rdMod1 (blank (unit 0 0 0x40 0)) = .done (.value 0x40) [] := by decide
/-- T-REG-15. -/
theorem test_wrMod1 : byteOf (.wrMod1 0xFF) (blank base) .mod1 = some 0x7E := by decide
/-- T-REG-16. -/
theorem test_rdMod2 : outOf .rdMod2 (blank (base.withMod2 (.ofByte 0x83))) = .done (.value 0x83) [] := by decide
/-- After `MK` and the first write of the sequence, section 3.5. -/
def armed : Sio := ((unit 0x01 0x20 0x70 0x04).withMod2 (.ofByte 0xC2)).withCr (.ofByte 0x18)
/-- T-SWR-1, with the value of T-SWR-4. -/
theorem test_wrMod2_resets :
    [byteOf (.wrMod2 0xFD) (blank armed) .mod2, byteOf (.wrMod2 0xFD) (blank armed) .cr,
      byteOf (.wrMod2 0xFD) (blank armed) .mod0, byteOf (.wrMod2 0xFD) (blank armed) .mod1,
      byteOf (.wrMod2 0xFD) (blank armed) .en, byteOf (.wrMod2 0xFD) (blank armed) .fcnf]
      = [some 0x01, some 0x00, some 0x00, some 0x60, some 0x01, some 0x04] := by decide
/-- T-SWR-6. -/
theorem test_wrMod2_plain :
    byteOf (.wrMod2 0x01) (blank (armed.withMod2 (.ofByte 0xC3))) .mod2 = some 0xC1 := by decide
/-- T-REG-50. -/
theorem test_rdRfc : outOf .rdRfc (blank (base.withRfc (.ofByte 0x82))) = .done (.value 0x82) [] := by decide
/-- T-REG-50. -/
theorem test_wrRfc_clears :
    (sioOf (.wrRfc 0x82) (blank ((base.withRfc (.ofByte 0x02)).withRxq [0x41, 0x42]))).rxq = [] := by decide
/-- T-REG-50. -/
theorem test_wrRfc_keeps :
    (sioOf (.wrRfc 0x82) (blank ((base.withRfc (.ofByte 0x82)).withRxq [0x43]))).rxq = [0x43] := by decide
/-- T-REG-51. -/
theorem test_rdTfc : outOf .rdTfc (blank (base.withTfc (.ofByte 0x80))) = .done (.value 0x80) [] := by decide
/-- T-REG-51. -/
theorem test_wrTfc_clears : (sioOf (.wrTfc 0x80) (blank (base.withTxq [0x01, 0x02]))).txq = [] := by decide
/-- P2, line 11. -/
theorem test_rdRst :
    (outOf .rdRst (blank ((base.withRst ⟨true⟩).withRxq [0x41, 0x42, 0x43, 0x44])),
      byteOf .rdRst (blank ((base.withRst ⟨true⟩).withRxq [0x41, 0x42, 0x43, 0x44])) .rst)
      = (.done (.value 0x84) [], some 0x04) := by decide
/-- R124. -/
theorem test_wrRst : outOf (.wrRst 0x00) (blank base) = .rejected (.readOnlyWrite 10) := by decide
/-- T-SND-4, after the eighth. -/
theorem test_rdTst :
    outOf .rdTst (blank (base.withTxq [1, 2, 3, 4, 5, 6, 7, 8])) = .done (.value 0x07) [] := by decide
/-- R126. -/
theorem test_wrTst : outOf (.wrTst 0xFF) (blank base) = .rejected (.readOnlyWrite 11) := by decide
/-- T-REG-19. -/
theorem test_rdFcnf : outOf .rdFcnf (blank (unit 0 0 0 0x17)) = .done (.value 0x17) [] := by decide
/-- T-REG-19. -/
theorem test_wrFcnf : byteOf (.wrFcnf 0xFF) (blank base) .fcnf = some 0x17 := by decide
/-- T-SND-1. -/
theorem test_send_dropped : outOf (.send 0x55) (blank base) = .done .dropped [.log .sendDropped] := by decide
/-- `WR BRCR, 0x41`; `WR BRADD, 0x08`; `WR EN, 0x01`; `WR MOD1, 0x50`, T-SND-5. -/
def badBaud : Sio := ((unit 0x01 0 0x50 0).withBrcr (.ofByte 0x41)).withBradd (.ofByte 0x08)
/-- T-SND-5. -/
theorem test_send_rejected :
    outOf (.send 0x55) (blank badBaud) = .rejected (.configError (.baudRate true 1 8)) := by decide
/-- The set-up of T-RCV-4, two symbols queued. -/
def full : Sio := ((unit 0x01 0x20 0x20 0x15).withRfc (.ofByte 0x02)).withRxq [0x41, 0x42]
/-- T-RCV-4. -/
theorem test_receive_overrun :
    (outOf (.receive 0x43) (blank full), (sioOf (.receive 0x43) (blank full)).rxq,
      byteOf (.receive 0x43) (blank full) .rst, byteOf (.receive 0x43) (blank full) .cr)
      = (.done .overrun [], [0x41, 0x42], some 0x82, some 0x10) := by decide
/-- P2, line 7. -/
theorem test_receive_hit :
    outOf (.receive 0x42) (blank (((unit 0x01 0x20 0x20 0x05).withRfc (.ofByte 0x02)).withRxq [0x41]))
      = .done .accepted [.irq 100] := by decide
/-- P4 before line 11. -/
def popping : Sio := (((unit 0x01 0 0x50 0x03).withTfc (.ofByte 0x01)).withTxq [0xA2, 0xA3]).withScheduled true
/-- P4, line 11. -/
theorem test_tick_auto_disable :
    (outOf .tick (blank popping), byteOf .tick (blank popping) .mod1, (sioOf .tick (blank popping)).scheduled)
      = (.done .finished [.irq 200, .txOut 0xA2], some 0x40, false) := by decide
/-- P1, line 8. -/
theorem test_tick_underrun :
    (outOf .tick (blank ((unit 0x01 0 0x50 0).withScheduled true)),
      byteOf .tick (blank ((unit 0x01 0 0x50 0).withScheduled true)) .cr)
      = (.done .finished [.log .txUnderrun], some 0x08) := by decide
/-- T-FRQ-25. -/
theorem test_freq :
    outOf .freq (blank ((base.withBrcr (.ofByte 0x43)).withBradd (.ofByte 0x05) |>.withMod1 (.ofByte 0x02)))
      = .done (.freq 6508474 723163) [] := by decide
/-- T-FRQ-6. -/
theorem test_freq_rejected :
    outOf .freq (blank ((base.withBrcr (.ofByte 0x40)).withBradd (.ofByte 0x08)))
      = .rejected (.configError (.baudRate true 0 8)) := by decide
/-- T-DEC-3. -/
theorem test_decLookup_overlap : refOf (.decLookup 0x1785) (fixState base) = some 2 := by decide +kernel
/-- T-DEC-5. -/
theorem test_decLookup_gap : refOf (.decLookup 0x9F81) (fixState base) = some 0 := by decide +kernel
/-- T-DEC-13. -/
theorem test_decBuild_order :
    (romRead (romBuild fixLayers 0x0003) 0x1707, romRead (romBuild fixLayers 0x0003) 0x1708,
      romRead (romBuild fixLayers 0x0003) 0x1710) = (4, 5, 1) := by decide +kernel
/-- T-DEC-15. -/
theorem test_decBuild_rejected :
    outOf (.decBuild 0x0004) (fixState base) = .rejected (.configError (.badLayerSelect 0x0004)) := by decide
/-- T-DEC-4, the word presented bare. -/
theorem test_unknown : refOf (.unknown 0x9F80) (fixState base) = some 3 := by decide +kernel
/-- T-DEC-23. -/
theorem test_claims_ill_formed :
    claimedSlots { descA with encoding := 0x00F1, mask := 0xFFF0 }
      = [0x00F1, 0x00F3, 0x00F5, 0x00F7, 0x00F9, 0x00FB, 0x00FD, 0x00FF] := by decide

/-! ### States and operands that meet the hypotheses of each obligation, clause by clause at the edges of its range -/

/-- A blank block with requests waiting. -/
def waiting (q : List Request) : State := (blank base).withPending q

theorem test_blank_inv (u : Sio) (hq : u.rxq.length ≤ 4) (hf : u.cr.ferr = false) (ht : u.mod2.txrun = false) :
    Inv (blank u) := ⟨show blankParams.wf = true by decide, rfl, rfl, hq, hf, ht⟩

theorem test_wit_DecodeEncode : Instr.wf (.decBuild 0xFFFF) = true := rfl
theorem test_wit_EncodingKeepsTag : decodeTxn 0x810003 = .ok (.decBuild 3) := rfl
theorem test_wit_IgnoredBits_none : txnTag 0x0FABCD = txnTag 0x0F0000 ∧ (txnTag 0x0FABCD).toNat < 0x10 := by decide
theorem test_wit_IgnoredBits_tick : txnTag 0x42ABCD = txnTag 0x420000 ∧ txnTag 0x42ABCD = 0x42#8 := by decide
theorem test_wit_IgnoredBits_freq : txnTag 0x43ABCD = txnTag 0x430000 ∧ txnTag 0x43ABCD = 0x43#8 := by decide
theorem test_wit_IgnoredBits_byte :
    txnTag 0x7FABCD = txnTag 0x7F00CD ∧ (txnTag 0x7FABCD).toNat < 0x80 ∧
      (0x7FABCD : Txn).extractLsb' 0 8 = (0x7F00CD : Txn).extractLsb' 0 8 := by decide
theorem test_wit_UnlistedTag_listed_read :
    (waiting [.txn 0x0C0000]).pending = .txn 0x0C0000 :: [] ∧ ListedTag (txnTag 0x0C0000).toNat :=
  ⟨rfl, by unfold ListedTag; decide⟩
theorem test_wit_UnlistedTag_listed_write :
    (waiting [.txn 0x1C0000]).pending = .txn 0x1C0000 :: [] ∧ ListedTag (txnTag 0x1C0000).toNat :=
  ⟨rfl, by unfold ListedTag; decide⟩
theorem test_wit_UnlistedTag_listed_freq :
    (waiting [.txn 0x43FFFF]).pending = .txn 0x43FFFF :: [] ∧ ListedTag (txnTag 0x43FFFF).toNat :=
  ⟨rfl, by unfold ListedTag; decide⟩
theorem test_wit_UnlistedTag_listed_build :
    (waiting [.txn 0x810000]).pending = .txn 0x810000 :: [] ∧ ListedTag (txnTag 0x810000).toNat :=
  ⟨rfl, by unfold ListedTag; decide⟩
theorem test_wit_UnlistedTag_listed_lowest :
    (waiting [.txn 0x00FFFF]).pending = .txn 0x00FFFF :: [] ∧ ListedTag (txnTag 0x00FFFF).toNat :=
  ⟨rfl, by unfold ListedTag; decide⟩
theorem test_wit_UnlistedTag_listed_lowestWrite :
    (waiting [.txn 0x100000]).pending = .txn 0x100000 :: [] ∧ ListedTag (txnTag 0x100000).toNat :=
  ⟨rfl, by unfold ListedTag; decide⟩
theorem test_wit_UnlistedTag_listed_send :
    (waiting [.txn 0x400000]).pending = .txn 0x400000 :: [] ∧ ListedTag (txnTag 0x400000).toNat :=
  ⟨rfl, by unfold ListedTag; decide⟩
theorem test_wit_UnlistedTag_listed_lookup :
    (waiting [.txn 0x800000]).pending = .txn 0x800000 :: [] ∧ ListedTag (txnTag 0x800000).toNat :=
  ⟨rfl, by unfold ListedTag; decide⟩
theorem test_wit_UnlistedTag_unmapped_13 :
    (waiting [.txn 0x0D0000]).pending = .txn 0x0D0000 :: [] ∧ UnmappedTag (txnTag 0x0D0000).toNat :=
  ⟨rfl, by unfold UnmappedTag; decide⟩
theorem test_wit_UnlistedTag_unmapped_15 :
    (waiting [.txn 0x0F0000]).pending = .txn 0x0F0000 :: [] ∧ UnmappedTag (txnTag 0x0F0000).toNat :=
  ⟨rfl, by unfold UnmappedTag; decide⟩
theorem test_wit_UnlistedTag_unmapped_29 :
    (waiting [.txn 0x1D0000]).pending = .txn 0x1D0000 :: [] ∧ UnmappedTag (txnTag 0x1D0000).toNat :=
  ⟨rfl, by unfold UnmappedTag; decide⟩
theorem test_wit_UnlistedTag_unmapped_31 :
    (waiting [.txn 0x1F0000]).pending = .txn 0x1F0000 :: [] ∧ UnmappedTag (txnTag 0x1F0000).toNat :=
  ⟨rfl, by unfold UnmappedTag; decide⟩
theorem test_wit_UnlistedTag_reserved_20 :
    (waiting [.txn 0x200000]).pending = .txn 0x200000 :: [] ∧
      ¬ ListedTag (txnTag 0x200000).toNat ∧ ¬ UnmappedTag (txnTag 0x200000).toNat :=
  ⟨rfl, by unfold ListedTag; decide, by unfold UnmappedTag; decide⟩
theorem test_wit_UnlistedTag_reserved_3F :
    (waiting [.txn 0x3F0000]).pending = .txn 0x3F0000 :: [] ∧
      ¬ ListedTag (txnTag 0x3F0000).toNat ∧ ¬ UnmappedTag (txnTag 0x3F0000).toNat :=
  ⟨rfl, by unfold ListedTag; decide, by unfold UnmappedTag; decide⟩
theorem test_wit_UnlistedTag_reserved_44 :
    (waiting [.txn 0x440000]).pending = .txn 0x440000 :: [] ∧
      ¬ ListedTag (txnTag 0x440000).toNat ∧ ¬ UnmappedTag (txnTag 0x440000).toNat :=
  ⟨rfl, by unfold ListedTag; decide, by unfold UnmappedTag; decide⟩
theorem test_wit_UnlistedTag_reserved_7F :
    (waiting [.txn 0x7F0000]).pending = .txn 0x7F0000 :: [] ∧
      ¬ ListedTag (txnTag 0x7F0000).toNat ∧ ¬ UnmappedTag (txnTag 0x7F0000).toNat :=
  ⟨rfl, by unfold ListedTag; decide, by unfold UnmappedTag; decide⟩
theorem test_wit_UnlistedTag_reserved_82 :
    (waiting [.txn 0x820000]).pending = .txn 0x820000 :: [] ∧
      ¬ ListedTag (txnTag 0x820000).toNat ∧ ¬ UnmappedTag (txnTag 0x820000).toNat :=
  ⟨rfl, by unfold ListedTag; decide, by unfold UnmappedTag; decide⟩
theorem test_wit_UnlistedTag_reserved_FF :
    (waiting [.txn 0xFF0000]).pending = .txn 0xFF0000 :: [] ∧
      ¬ ListedTag (txnTag 0xFF0000).toNat ∧ ¬ UnmappedTag (txnTag 0xFF0000).toNat :=
  ⟨rfl, by unfold ListedTag; decide, by unfold UnmappedTag; decide⟩
theorem test_wit_BusAccess_read : (waiting [.memRead 48 1]).pending = .memRead (4 * regSel .fcnf) 1 :: [] := rfl
theorem test_wit_BusAccess_write :
    (waiting [.memWrite 0 1 0xFF]).pending = .memWrite (4 * regSel .en) 1 0xFF :: [] := rfl
theorem test_wit_BusAccess_size : (waiting [.memRead 0 2]).pending = .memRead 0 2 :: [] ∧ 2 ≠ 1 := ⟨rfl, by decide⟩
theorem test_wit_BusAccess_noSize :
    (waiting [.memRead 48 0]).pending = .memRead 48 0 :: [] ∧ 0 ≠ 1 := ⟨rfl, by decide⟩
theorem test_wit_BusAccess_unaligned :
    (waiting [.memWrite 47 1 0]).pending = .memWrite 47 1 0 :: [] ∧ 47 % 4 ≠ 0 := ⟨rfl, by decide⟩
theorem test_wit_BusAccess_beyond :
    (waiting [.memRead 52 1]).pending = .memRead 52 1 :: [] ∧ 48 < 52 := ⟨rfl, by decide⟩
theorem test_wit_StepRunsDecoded :
    (waiting [.txn 0x420000]).pending = .txn 0x420000 :: [] ∧
      (Request.txn 0x420000).decode = .ok .tick ∧ Instr.wf .tick = true := ⟨rfl, rfl, rfl⟩
theorem test_wit_IdleSteps : State.reset.pending = [] := rfl
theorem test_wit_PlacedWords :
    decodeTableWord 24 0x430000 = some .freq ∧ decodeTableWord 16 0xFFFF = some (.unknown 0xFFFF) := ⟨rfl, rfl⟩
theorem test_wit_StepKeepsInvariant :
    Inv (waiting [.txn 0x810000]) ∧ ∃ t, step (waiting [.txn 0x810000]) = .next t :=
  ⟨⟨by decide, rfl, rfl, by decide, rfl, rfl⟩, _, rfl⟩
/-- A symbol in the receive slot. -/
def slotFull : Sio := (unit 1 0x20 0x20 0).withMod2 (.ofByte 0xC0)
theorem test_wit_ReadBuf_slot : slotFull.fcnf.cnfg = false ∧ slotFull.mod2.rbf = true := by decide
theorem test_wit_ReadBuf_slotEmpty : base.fcnf.cnfg = false ∧ base.mod2.rbf = false := by decide
theorem test_wit_ReadBuf_queue : full.fcnf.cnfg = true ∧ full.rxq = 0x41 :: [0x42] := by decide
theorem test_wit_ReadBuf_queueEmpty : (unit 1 0 0 1).fcnf.cnfg = true ∧ (unit 1 0 0 1).rxq = [] := by decide
theorem test_wit_WritesModes_io : (0x20 : Byte).extractLsb' 2 2 = 0#2 := by decide
theorem test_wit_WritesModes_uart :
    (0x2C : Byte).extractLsb' 2 2 ≠ 0#2 ∧ (0x04 : Byte).extractLsb' 2 2 ≠ 0#2 := by decide
theorem test_wit_WriteMod2_resets : armed.mod2.swrst = 2#2 ∧ (0xFD : Byte).extractLsb' 0 2 = 1#2 := by decide
theorem test_wit_WriteMod2_plain :
    ¬ (base.mod2.swrst = 2#2 ∧ (0x01 : Byte).extractLsb' 0 2 = 1#2) ∧
      ¬ (armed.mod2.swrst = 2#2 ∧ (0x02 : Byte).extractLsb' 0 2 = 1#2) := by decide
theorem test_wit_WriteBuf_preload : base.en.sioe = false := by decide
theorem test_wit_SendEffect_dropped : base.en.sioe = false := by decide
/-- Fine-adjust with `K` = 0. -/
def zeroK : Sio := (unit 1 0 0x50 0).withBrcr (.ofByte 0x42)
/-- Fine-adjust with `N` = 16, written as 0. -/
def sixteenN : Sio := ((unit 1 0 0x50 0).withBrcr (.ofByte 0x40)).withBradd (.ofByte 0x08)
theorem test_wit_WriteBuf_rejectedN16 :
    sixteenN.en.sioe = true ∧ WouldRegister sixteenN ∧ BaudInvalid sixteenN :=
  ⟨rfl, by unfold WouldRegister; decide, by unfold BaudInvalid; decide⟩
theorem test_wit_SendEffect_rejectedN16 :
    sixteenN.en.sioe = true ∧ WouldRegister sixteenN ∧ BaudInvalid sixteenN :=
  test_wit_WriteBuf_rejectedN16
theorem test_wit_WriteBuf_rejected :
    badBaud.en.sioe = true ∧ WouldRegister badBaud ∧ BaudInvalid badBaud :=
  ⟨rfl, by unfold WouldRegister; decide, by unfold BaudInvalid; decide⟩
theorem test_wit_WriteBuf_rejectedK :
    zeroK.en.sioe = true ∧ WouldRegister zeroK ∧ BaudInvalid zeroK :=
  ⟨rfl, by unfold WouldRegister; decide, by unfold BaudInvalid; decide⟩
theorem test_wit_WriteBuf_registers :
    (unit 1 0 0x50 0).en.sioe = true ∧ WouldRegister (unit 1 0 0x50 0) ∧ ¬ BaudInvalid (unit 1 0 0x50 0) :=
  ⟨rfl, by unfold WouldRegister; decide, by unfold BaudInvalid; decide⟩
theorem test_wit_WriteBuf_accepts :
    (unit 1 0 0x40 0).en.sioe = true ∧ ¬ WouldRegister (unit 1 0 0x40 0) := ⟨rfl, by unfold WouldRegister; decide⟩
theorem test_wit_WriteBuf_acceptsScheduled :
    popping.en.sioe = true ∧ ¬ WouldRegister popping := ⟨rfl, by unfold WouldRegister; decide⟩
theorem test_wit_SendEffect_rejected :
    badBaud.en.sioe = true ∧ WouldRegister badBaud ∧ BaudInvalid badBaud :=
  ⟨rfl, by unfold WouldRegister; decide, by unfold BaudInvalid; decide⟩
theorem test_wit_SendEffect_rejectedK :
    zeroK.en.sioe = true ∧ WouldRegister zeroK ∧ BaudInvalid zeroK :=
  ⟨rfl, by unfold WouldRegister; decide, by unfold BaudInvalid; decide⟩
theorem test_wit_SendEffect_registers :
    (unit 1 0 0x50 0).en.sioe = true ∧ WouldRegister (unit 1 0 0x50 0) ∧ ¬ BaudInvalid (unit 1 0 0x50 0) :=
  ⟨rfl, by unfold WouldRegister; decide, by unfold BaudInvalid; decide⟩
theorem test_wit_SendEffect_accepts :
    (unit 1 0 0x40 0).en.sioe = true ∧ ¬ WouldRegister (unit 1 0 0x40 0) := ⟨rfl, by unfold WouldRegister; decide⟩
theorem test_wit_SendEffect_acceptsScheduled :
    popping.en.sioe = true ∧ ¬ WouldRegister popping := ⟨rfl, by unfold WouldRegister; decide⟩
theorem test_wit_MaskedStore :
    Reg.fcnf ≠ .buf ∧ Reg.fcnf ≠ .rst ∧ Reg.fcnf ≠ .tst ∧ regView full .fcnf = some 0x15 ∧
      ¬ CompletesSoftReset (writeInstr 0xFF .fcnf) full :=
  ⟨by decide, by decide, by decide, by decide, by rintro ⟨h, _⟩; revert h; decide⟩
theorem test_wit_MaskedStore_mod2 :
    regView armed .mod2 = some 0xC2 ∧ CompletesSoftReset (writeInstr 0x01 .mod2) armed :=
  ⟨by decide, by decide, 0x01, rfl, by decide⟩
theorem test_wit_WriteOnes :
    Reg.mod0 ≠ .buf ∧ Reg.mod0 ≠ .rst ∧ Reg.mod0 ≠ .tst ∧ regView base .mod0 = some 0x00 ∧
      (0x00 : Byte) &&& ~~~wmask .mod0 = 0#8 := by decide
theorem test_wit_WriteOnes_mod2 :
    regView ((base.withMod2 (.ofByte 0x01))) .mod2 = some 0x01 ∧ (0x01 : Byte) &&& ~~~wmask .mod2 = 0#8 := by decide
theorem test_wit_ReceiveDrops_sioe : (unit 0 0x20 0x20 0).en.sioe = false := by decide
theorem test_wit_ReceiveDrops_rxe : (unit 1 0 0x20 0).mod0.rxe = false := by decide
theorem test_wit_ReceiveDrops_noDuplex : (unit 1 0x20 0x00 0).mod1.fdpx = 0#2 := by decide
theorem test_wit_ReceiveDrops_transmitOnly : (unit 1 0x20 0x40 0).mod1.fdpx = 2#2 := by decide
theorem test_wit_ReceiveSlot_overrun :
    receivePermitted slotFull = true ∧ slotFull.fcnf.cnfg = false ∧ slotFull.mod2.rbf = true := by decide
theorem test_wit_ReceiveSlot_stores :
    receivePermitted (unit 1 0x20 0x20 0x04) = true ∧ (unit 1 0x20 0x20 0x04).fcnf.cnfg = false ∧
      (unit 1 0x20 0x20 0x04).mod2.rbf = false := by decide
theorem test_wit_ReceiveFifo_overrun :
    receivePermitted full = true ∧ full.fcnf.cnfg = true ∧ full.fcnf.rfst = true ∧
      rxThreshold blankParams full = 2 ∧ 2 < full.rxq.length + 1 := by decide
/-- Four symbols queued, the whole queue usable. -/
def atCapacity : Sio := (full.withFcnf (.ofByte 0x05)).withRxq [1, 2, 3, 4]
theorem test_wit_ReceiveFifo_overrunCapacity :
    receivePermitted atCapacity = true ∧ atCapacity.fcnf.cnfg = true ∧ atCapacity.fcnf.rfst = false ∧
      blankParams.rxqCap < atCapacity.rxq.length + 1 := by decide
/-- One symbol below the usable capacity, and none queued. -/
def oneBelow : Sio := full.withRxq [0x41]
def noneQueued : Sio := full.withRxq []
theorem test_wit_ReceiveFifo_hit :
    receivePermitted oneBelow = true ∧ oneBelow.fcnf.cnfg = true ∧ rxThreshold blankParams oneBelow = 2 ∧
      oneBelow.rxq.length + 1 = 2 ∧ rxHit blankParams oneBelow 2 = true := by decide
theorem test_wit_ReceiveFifo_noHit :
    receivePermitted noneQueued = true ∧ noneQueued.fcnf.cnfg = true ∧ rxThreshold blankParams noneQueued = 2 ∧
      noneQueued.rxq.length + 1 = 1 ∧ rxHit blankParams noneQueued 1 = false := by decide
theorem test_wit_Threshold_exact : (unit 1 0 0 1).rfc.rfis = false ∧ (unit 1 0 0 1).tfc.tfis = false := by decide
theorem test_wit_Threshold_ordered :
    (base.withRfc (.ofByte 0x42)).rfc.rfis = true ∧ (base.withTfc (.ofByte 0x41)).tfc.tfis = true := by decide
/-- P2 before line 6. -/
def listening : Sio := (unit 0x01 0x20 0x20 0x05).withRfc (.ofByte 0x02)
theorem test_wit_ExactThreshold :
    receivePermitted listening = true ∧ listening.fcnf = ⟨false, true, false, true⟩ ∧ listening.rfc.rfis = false ∧
      rxThreshold blankParams listening = 2 ∧ 3 ≤ blankParams.rxqCap ∧ listening.rxq = [] := by decide
theorem test_wit_TickUnregistered : base.scheduled = false := by decide
/-- Registered, the slot occupied; registered, the slot empty. -/
def slotDue : Sio := ((unit 1 0 0x50 0).withMod2 (.ofByte 0x00)).withScheduled true
def slotEmpty : Sio := (unit 1 0 0x50 0).withScheduled true
theorem test_wit_TickSlot_takes :
    slotDue.scheduled = true ∧ slotDue.fcnf.cnfg = false ∧ slotDue.mod2.tbe = false := by decide
theorem test_wit_TickSlot_underrun :
    slotEmpty.scheduled = true ∧ slotEmpty.fcnf.cnfg = false ∧ slotEmpty.mod2.tbe = true := by decide
/-- P4's registers with the queue empty, with three symbols, and without auto-disable. -/
def queueEmpty : Sio := popping.withTxq []
def queueThree : Sio := popping.withTxq [1, 2, 3]
def noDisable : Sio := popping.withFcnf (.ofByte 0x01)
theorem test_wit_TickFifo_underrun :
    queueEmpty.scheduled = true ∧ queueEmpty.fcnf.cnfg = true ∧ queueEmpty.txq = [] := by decide
theorem test_wit_TickFifo_pops :
    queueThree.scheduled = true ∧ queueThree.fcnf.cnfg = true ∧ queueThree.txq = 1 :: [2, 3] ∧
      txHit blankParams queueThree 2 = false := by decide
theorem test_wit_TickFifo_hit :
    noDisable.scheduled = true ∧ noDisable.fcnf.cnfg = true ∧ noDisable.txq = 0xA2 :: [0xA3] ∧
      txHit blankParams noDisable 1 = true ∧ noDisable.fcnf.rxtxcnt = false := by decide
theorem test_wit_TickFifo_autoDisable :
    popping.scheduled = true ∧ popping.fcnf.cnfg = true ∧ popping.txq = 0xA2 :: [0xA3] ∧
      txHit blankParams popping 1 = true ∧ popping.fcnf.rxtxcnt = true := by decide
theorem test_wit_TrailingUnderrun :
    (unit 1 0 0x50 0).en.sioe = true ∧ (unit 1 0 0x50 0).mod1.txe = true ∧ (unit 1 0 0x50 0).fcnf.cnfg = false ∧
      (unit 1 0 0x50 0).cr.ioc = false ∧ ¬ BaudInvalid (unit 1 0 0x50 0) :=
  ⟨rfl, rfl, rfl, rfl, by unfold BaudInvalid; decide⟩
/-- Two symbols queued and two ticks presented. -/
def draining : State :=
  (blank noDisable).withPending [.txn 0x420000, .txn 0x420000, .txn 0x430000]
theorem test_wit_TicksDrain :
    draining.sio.scheduled = true ∧ draining.sio.fcnf.cnfg = true ∧ draining.sio.fcnf.rxtxcnt = false ∧
      draining.pending = List.replicate draining.sio.txq.length (encode .tick) ++ [.txn 0x430000] :=
  ⟨rfl, rfl, rfl, rfl⟩
/-- `BRCR` and `BRADD` as the rows of 95_test_vectors.md section 7 write them. -/
def baud (b k : Byte) : Sio := (base.withBrcr (.ofByte b)).withBradd (.ofByte k)

/-- The terms FREQ computes from, in the form of the statement. -/
def freqTerms (u : Sio) (n den b g : Nat) : Bool :=
  n == (if u.brcr.s = 0#4 then 16 else u.brcr.s.toNat) &&
  den == (if u.brcr.adde = true then 16 * n + 16 - u.bradd.k.toNat else 16 * n) &&
  b == 16 * blankParams.tapHz.get u.brcr.ck.toFin / den &&
  g == (if u.mod1.sint = 0#3 then 0 else 2 ^ (u.mod1.sint.toNat - 1))
theorem test_wit_Freq_rejectedN1 :
    freqTerms (baud 0x41 0x08) 1 24 16000000 0 = true ∧ (baud 0x41 0x08).brcr.adde = true := by decide
theorem test_wit_Freq_rejectedN16 :
    freqTerms (baud 0x40 0x08) 16 264 1454545 0 = true ∧ (baud 0x40 0x08).brcr.adde = true := by decide
theorem test_wit_Freq_rejectedK0 :
    freqTerms (baud 0x44 0x00) 4 80 4800000 0 = true ∧ (baud 0x44 0x00).brcr.adde = true ∧
      (baud 0x44 0x00).bradd.k = 0#4 := by decide
theorem test_wit_Freq_valid :
    freqTerms (baud 0x00 0x00) 16 256 1500000 0 = true ∧
      ¬ ((baud 0x00 0x00).brcr.adde = true ∧ ((baud 0x00 0x00).bradd.k = 0#4 ∨ 16 = 1 ∨ 16 = 16)) := by decide
theorem test_wit_Freq_validK15 :
    freqTerms (baud 0x42 0x0F) 2 33 11636363 0 = true ∧
      ¬ ((baud 0x42 0x0F).brcr.adde = true ∧ ((baud 0x42 0x0F).bradd.k = 0#4 ∨ 2 = 1 ∨ 2 = 16)) := by decide
theorem test_wit_SourceBaud_plain :
    blankParams.tapHz.get (baud 0x04 0x00).brcr.ck.toFin = 24000000 ∧ (baud 0x04 0x00).mod1.sint = 0#3 ∧
      (baud 0x04 0x00).brcr.s = 4#4 ∧ (baud 0x04 0x00).brcr.adde = false := by decide
theorem test_wit_SourceBaud_fine :
    blankParams.tapHz.get (baud 0x44 0x08).brcr.ck.toFin = 24000000 ∧ (baud 0x44 0x08).mod1.sint = 0#3 ∧
      (baud 0x44 0x08).brcr.s = 4#4 ∧ (baud 0x44 0x08).brcr.adde = true ∧ (baud 0x44 0x08).bradd.k = 8#4 := by decide
theorem test_wit_SourceBaud_refused :
    blankParams.tapHz.get (baud 0x41 0x08).brcr.ck.toFin = 24000000 ∧ (baud 0x41 0x08).mod1.sint = 0#3 ∧
      (baud 0x41 0x08).brcr.s = 1#4 ∧ (baud 0x41 0x08).brcr.adde = true := by decide
theorem test_wit_Lookup_record :
    (descStore (fixState base).params.layers)[romRead (fixState base).rom (0x9F80 : Word).toNat]? = some descC :=
  by decide +kernel
theorem test_wit_Lookup_gap :
    Inv (fixState base) ∧ ∀ e ∈ overlaySeq fixLayers 0, claims e.2 0x9F81 = false :=
  ⟨⟨by decide, by simp only [fixState, fixParams, Config.defaults], by decide, by decide, rfl, rfl⟩, by decide⟩
theorem test_wit_BareWord_gap :
    Inv (blank base) ∧ ∀ e ∈ overlaySeq (blank base).params.layers (blank base).cfg, claims e.2 0x0000 = false :=
  ⟨test_blank_inv base (by decide) rfl rfl, by decide⟩
theorem test_wit_Build_rejected :
    ∃ i : Nat, fixLayers.nalt ≤ i ∧ (0x0004 : Word).getLsbD i = true := ⟨2, by decide, by decide⟩
theorem test_wit_Build_accepted : ∀ i : Nat, fixLayers.nalt ≤ i → (0x0003 : Word).getLsbD i = false := by
  intro i (h : 2 ≤ i)
  by_cases hi : i < 16
  · interval_cases i <;> rfl
  · exact BitVec.getLsbD_of_ge _ _ (by omega)
theorem test_wit_BuildForgets : ∀ c ∈ [(0x0001 : Word), 0x0003], ∀ i : Nat, fixLayers.nalt ≤ i → c.getLsbD i = false := by
  intro c hc i (h : 2 ≤ i)
  simp only [List.mem_cons, List.not_mem_nil, or_false] at hc
  by_cases hi : i < 16
  · rcases hc with rfl | rfl <;> interval_cases i <;> rfl
  · exact BitVec.getLsbD_of_ge _ _ (by omega)
theorem test_wit_Apply_claimed :
    romWf [(0x1700, 1)] = true ∧ ∃ x : Word, x &&& descC.mask = 0#16 ∧ 0x9F80 = descC.encoding ||| x :=
  ⟨by decide, 0, by decide, by decide⟩
theorem test_wit_Apply_other : romWf [(0x1700, 1)] = true ∧
    ¬ ∃ x : Word, x &&& descC.mask = 0#16 ∧ 0x9F81 = descC.encoding ||| x := by
  refine ⟨by decide, fun ⟨x, h1, h2⟩ => ?_⟩
  have hm : x &&& 0xFFFF#16 = x := BitVec.and_allOnes
  have h0 : x = 0#16 := hm.symm.trans h1
  subst h0
  revert h2
  decide
/-- T-DEC-13 and T-DEC-12 of 95_test_vectors.md: with both layers on, `Q` answers for 0x1708, and it keeps its reference
with `ALT[1]` off. -/
theorem test_wit_RomHolds_last :
    (5, descQ) ∈ buildSeq fixLayers 3 ∧ (5, descQ) ∈ buildSeq fixLayers 2 ∧ claims descQ 0x1708 = true ∧
      (∀ e ∈ buildSeq fixLayers 3, 5 < e.1 → claims e.2 0x1708 = false) ∧
      ∃ s : State, s.params.layers = fixLayers ∧ s.rom = romBuild fixLayers 3 :=
  ⟨by decide, by decide, by decide, by decide, (fixState base).withRom (romBuild fixLayers 3),
    by simp only [State.withRom_params, fixState, fixParams, Config.defaults], State.withRom_rom _ _⟩
theorem test_wit_RomHolds_covered :
    (1, descA) ∈ buildSeq fixLayers 2 ∧ claims descA 0x1707 = true ∧
      ∀ e ∈ buildSeq fixLayers 2, 1 < e.1 → claims e.2 0x1707 = false := by decide
theorem test_wit_ClaimedWords : descB.wf = true := by decide
theorem test_wit_ExecutionFields : ∃ d ∈ fixLayers.base, claims d 0x1703 = true := ⟨descA, by decide, by decide⟩
/-- `FIX` meets H-ALT, 95_test_vectors.md section 2.1: only the canonical `A` shares a word with `P` or `Q`. -/
theorem test_wit_ExecutionFields_alt : AltAgrees fixLayers := by
  intro l hl d hd c hc w h1 h2
  simp only [fixLayers, List.mem_cons, List.not_mem_nil, or_false] at hl hc
  have key : ∀ e : Descriptor, (e = descB ∨ e = descC) → (d = descP ∨ d = descQ) → claims e w = true →
      claims d w = true → False := by
    intro e he hd' g1 g2
    have bits : ∀ (m n : Word), w &&& m = n → ∀ i, w.getLsbD i = true ∨ m.getLsbD i = false ∨ n.getLsbD i = false := by
      intro m n hmn i
      have := congrArg (·.getLsbD i) hmn
      simp only [BitVec.getLsbD_and] at this
      revert this
      cases w.getLsbD i <;> cases m.getLsbD i <;> cases n.getLsbD i <;> simp
    have zero : ∀ (m n : Word), w &&& m = n → ∀ i, w.getLsbD i = false ∨ m.getLsbD i = false ∨ n.getLsbD i = true := by
      intro m n hmn i
      have := congrArg (·.getLsbD i) hmn
      simp only [BitVec.getLsbD_and] at this
      revert this
      cases w.getLsbD i <;> cases m.getLsbD i <;> cases n.getLsbD i <;> simp
    simp only [claims, Bool.and_eq_true, beq_iff_eq] at g1 g2
    rcases he with rfl | rfl <;> rcases hd' with rfl | rfl <;>
      first
      | (have a := bits _ _ g1.1 7; have b := zero _ _ g2.1 7
         simp [descB, descC, descP, descQ] at a b; simp [a] at b)
  have hd' : d = descP ∨ d = descQ := by
    rcases hl with rfl | rfl <;> simp only [List.mem_cons, List.not_mem_nil, or_false] at hd
    · exact .inl hd
    · exact .inr hd
  rcases hc with rfl | rfl | rfl
  · rcases hd' with rfl | rfl <;> decide
  · exact (key _ (.inl rfl) hd' h2 h1).elim
  · exact (key _ (.inr rfl) hd' h2 h1).elim

theorem test_wit_ExecutionFields_both : AltAgrees fixLayers ∧ ∃ d ∈ fixLayers.base, claims d 0x1703 = true :=
  ⟨test_wit_ExecutionFields_alt, test_wit_ExecutionFields⟩
theorem test_wit_RejectionChangesNothing :
    ∃ t, exec .tick (blank base) = .next t ∧ t.out = .rejected (.reservedTransaction 0x42) := ⟨_, rfl, rfl⟩
theorem test_wit_RejectionIsForgotten :
    (waiting [.txn 0x440000, .txn 0x000000]).pending = .txn 0x440000 :: .txn 0x000000 :: [] ∧
      ∃ t, step (waiting [.txn 0x440000, .txn 0x000000]) = .next t ∧ t.out = .rejected (.reservedTransaction 0x44) :=
  ⟨rfl, _, rfl, rfl⟩
theorem test_wit_StrictStep_rejected :
    ∃ t, step (waiting [.txn 0x420000]) = .next t ∧ t.out = .rejected (.reservedTransaction 0x42) := ⟨_, rfl, rfl⟩
theorem test_wit_StrictStep_clean :
    ∃ t, step (waiting [.txn 0x000000]) = .next t ∧ t.out = .done (.value 0) [] := ⟨_, rfl, rfl⟩
theorem test_wit_EventsPerOperation :
    ∃ t, exec .tick (blank popping) = .next t ∧ t.out = .done .finished [.irq 200, .txOut 0xA2] := ⟨_, rfl, by decide⟩
theorem test_wit_InterruptSources_receive :
    ∃ t, exec (.receive 0x42) (blank (listening.withRxq [0x41])) = .next t ∧
      t.out = .done .accepted [.irq 100] ∧ Event.irq 100 ∈ [Event.irq 100] := ⟨_, rfl, by decide, by decide⟩
theorem test_wit_InterruptSources_none :
    ∃ t, exec (.receive 0x43) (blank (listening.withRxq [0x41, 0x42])) = .next t ∧
      t.out = .done .accepted [] ∧ ¬ Event.irq 100 ∈ ([] : List Event) := ⟨_, rfl, by decide, by decide⟩
theorem test_wit_StickyFlags_oerr :
    ∃ t, exec (.receive 0x43) (blank full) = .next t ∧ full.cr.oerr = false ∧ t.sio.cr.oerr = true ∧
      full.rst.ror = false ∧ t.sio.rst.ror = true := ⟨_, rfl, by decide, by decide, by decide, by decide⟩
theorem test_wit_StickyFlags_perr :
    ∃ t, exec .tick (blank slotEmpty) = .next t ∧ slotEmpty.cr.perr = false ∧ t.sio.cr.perr = true :=
  ⟨_, rfl, by decide, by decide⟩
theorem test_wit_StickyFlags_kept :
    ∃ t, exec .rdRst (blank (base.withCr (.ofByte 0x1C))) = .next t ∧ Instr.rdRst ≠ .rdCr ∧
      ¬ CompletesSoftReset .rdRst (base.withCr (.ofByte 0x1C)) ∧ (base.withCr (.ofByte 0x1C)).cr.oerr = true :=
  ⟨_, rfl, by decide, by rintro ⟨h, _⟩; revert h; decide, by decide⟩
theorem test_wit_StickyFlags_ror :
    ∃ t, exec .rdCr (blank (base.withRst ⟨true⟩)) = .next t ∧ Instr.rdCr ≠ .rdRst ∧
      (base.withRst ⟨true⟩).rst.ror = true := ⟨_, rfl, by decide, rfl⟩
theorem test_wit_StatusFlags_tbeSet :
    ∃ t, exec .tick (blank slotDue) = .next t ∧ slotDue.mod2.tbe = false ∧ t.sio.mod2.tbe = true :=
  ⟨_, rfl, by decide, by decide⟩
theorem test_wit_StatusFlags_tbeCleared :
    ∃ t, exec (.send 0x55) (blank (unit 1 0 0 0)) = .next t ∧
      (unit 1 0 0 0).mod2.tbe = true ∧ t.sio.mod2.tbe = false := ⟨_, rfl, by decide, by decide⟩
theorem test_wit_StatusFlags_rbfSet :
    ∃ t, exec (.receive 0x41) (blank (unit 1 0x20 0x20 0)) = .next t ∧
      (unit 1 0x20 0x20 0).mod2.rbf = false ∧ t.sio.mod2.rbf = true := ⟨_, rfl, by decide, by decide⟩
theorem test_wit_StatusFlags_rbfCleared :
    ∃ t, exec .rdBuf (blank slotFull) = .next t ∧ slotFull.mod2.rbf = true ∧ t.sio.mod2.rbf = false :=
  ⟨_, rfl, by decide, by decide⟩
theorem test_wit_StatusFlags_txrun :
    ∃ t, exec (.wrMod2 0x01) (blank (base.withMod2 (.ofByte 0x22))) = .next t ∧
      (base.withMod2 (.ofByte 0x22)).mod2.txrun = true ∧ t.sio.mod2.txrun = false := ⟨_, rfl, by decide, by decide⟩
theorem test_wit_StatusFlags_txrunStays :
    ∃ t, exec (.wrMod2 0xFF) (blank base) = .next t ∧ base.mod2.txrun = false := ⟨_, rfl, rfl⟩
theorem test_wit_Registration_set :
    ∃ t, exec (.wrBuf 0x55) (blank (unit 1 0 0x50 0)) = .next t ∧
      (unit 1 0 0x50 0).scheduled = false ∧ t.sio.scheduled = true := ⟨_, rfl, by decide, by decide⟩
theorem test_wit_Registration_cleared :
    ∃ t, exec .tick (blank popping) = .next t ∧ popping.scheduled = true ∧ t.sio.scheduled = false :=
  ⟨_, rfl, by decide, by decide⟩
theorem test_wit_QueueChanges :
    ∃ t, exec .rdBuf (blank full) = .next t ∧ full.rxq = 0x41 :: t.sio.rxq := ⟨_, rfl, by decide⟩
theorem test_wit_QueueChanges_append :
    ∃ t, exec (.receive 0x42) (blank oneBelow) = .next t ∧ t.sio.rxq = oneBelow.rxq ++ [0x42] := ⟨_, rfl, by decide⟩
theorem test_wit_QueueChanges_clear :
    ∃ t, exec (.wrRfc 0x82) (blank full) = .next t ∧ full.rfc.rfcs = false ∧ t.sio.rxq = [] :=
  ⟨_, rfl, by decide, by decide⟩
theorem test_wit_QueueChanges_send :
    ∃ t, exec (.send 0x55) (blank popping) = .next t ∧ t.sio.txq = popping.txq ++ [0x55] := ⟨_, rfl, by decide⟩
theorem test_wit_QueueChanges_tick :
    ∃ t, exec .tick (blank popping) = .next t ∧ popping.txq = 0xA2 :: t.sio.txq := ⟨_, rfl, by decide⟩
theorem test_wit_QueueChanges_clearTx :
    ∃ t, exec (.wrTfc 0x81) (blank popping) = .next t ∧ popping.tfc.tfcs = false ∧ t.sio.txq = [] :=
  ⟨_, rfl, by decide, by decide⟩
theorem test_wit_InactivePath_slot :
    ∃ t, exec (.receive 0x41) (blank (unit 1 0x20 0x20 0)) = .next t ∧ (unit 1 0x20 0x20 0).fcnf.cnfg = false :=
  ⟨_, rfl, rfl⟩
theorem test_wit_InactivePath_queue :
    ∃ t, exec .tick (blank popping) = .next t ∧ popping.fcnf.cnfg = true := ⟨_, rfl, rfl⟩
theorem test_wit_Independent_serial :
    ∃ t t', exec (.send 0x55) (blank base) = .next t ∧ exec (.send 0x55) ((blank base).withCfg 1) = .next t' ∧
      (blank base).params = ((blank base).withCfg 1).params ∧ Instr.port (.send 0x55) ≠ .decoder ∧
      (blank base).sio = ((blank base).withCfg 1).sio := ⟨_, _, rfl, rfl, rfl, by decide, rfl⟩
theorem test_wit_Independent_decoder :
    ∃ t t', exec (.decLookup 0) (blank base) = .next t ∧ exec (.decLookup 0) (blank full) = .next t' ∧
      (blank base).params = (blank full).params ∧ Instr.port (.decLookup 0) = .decoder ∧
      (blank base).rom = (blank full).rom ∧ (blank base).cfg = (blank full).cfg :=
  ⟨_, _, rfl, rfl, rfl, rfl, rfl, rfl⟩
theorem test_wit_SerialMode :
    Instr.tick ≠ .rdMod0 ∧ (∀ v : Byte, Instr.tick ≠ .wrMod0 v) ∧ ∃ t, exec .tick (blank popping) = .next t :=
  ⟨by decide, fun _ h => (by cases h), _, rfl⟩
theorem test_wit_ModelFieldsUnread : ∃ t, exec .freq (blank base) = .next t := ⟨_, rfl⟩

end Sys2Proof.Tests
end

section
/-! Settles O43: the slots `apply` writes, bit by bit, are the words `encoding | x` of 30_encoding.md R61, and what a slot
then reads is `romRead_romApply`. -/

namespace Sys2Proof.Machine

/-- A number whose bits from `n` up are `2 * acc + b` has the bits `acc` from `n + 1` up, and the bit `b` at `n`. -/
theorem shiftRight_eq_two_mul_add_toNat_iff {w n acc : Nat} {b : Bool} :
    w >>> n = 2 * acc + b.toNat ↔ w >>> (n + 1) = acc ∧ w.testBit n = b := by
  have hbit : w.testBit n = decide (w >>> n % 2 = 1) := by
    rw [Nat.testBit_eq_decide_div_mod_eq, Nat.shiftRight_eq_div_pow]
  rw [Nat.shiftRight_succ, hbit]
  cases b <;> simp only [Bool.toNat_true, Bool.toNat_false, decide_eq_true_eq, decide_eq_false_iff_not] <;> omega

/-- The words `slotWords` lists: the prefix `acc` followed by `n` bits, each 1 where the encoding's is, 0
where only the mask's is, and free where neither is: bit by bit, `w = e | (w & ~m)`. -/
theorem mem_slotWords {n e m acc w : Nat} :
    w ∈ slotWords n e m acc ↔
      w >>> n = acc ∧ ∀ i < n, w.testBit i = (e.testBit i || (w.testBit i && !m.testBit i)) := by
  induction n generalizing acc with
  | zero => simp [slotWords]
  | succ n ih =>
    have extend (b : Bool) : w ∈ slotWords n e m (2 * acc + b.toNat) ↔
        w >>> (n + 1) = acc ∧
          (∀ i < n, w.testBit i = (e.testBit i || (w.testBit i && !m.testBit i))) ∧ w.testBit n = b := by
      rw [ih, shiftRight_eq_two_mul_add_toNat_iff, and_right_comm, and_assoc]
    have append0 := extend false
    have append1 := extend true
    simp only [Bool.toNat_false, Bool.toNat_true, Nat.add_zero] at append0 append1
    rw [Nat.forall_lt_succ_right]
    cases he : e.testBit n with
    | true => simp [slotWords, he, append1]
    | false =>
      cases hm : m.testBit n with
      | true => simp [slotWords, he, hm, append0]
      | false =>
        simp only [slotWords, he, hm, Bool.false_eq_true, if_false, List.mem_append, append0, append1]
        cases w.testBit n <;> simp

/-- A word is `encoding | x` for some `x` of the free bits exactly when its own free bits are such an `x`. -/
theorem exists_free_bits_iff (e m w : Word) :
    (∃ x : Word, x &&& m = 0#16 ∧ w = e ||| x) ↔ w = e ||| (w &&& ~~~m) := by
  constructor
  · rintro ⟨x, hx, rfl⟩
    refine BitVec.eq_of_getLsbD_eq fun i hi => ?_
    have hfree : (x.getLsbD i && m.getLsbD i) = false := by
      rw [← BitVec.getLsbD_and, hx, BitVec.getLsbD_zero]
    revert hfree
    simp only [BitVec.getLsbD_or, BitVec.getLsbD_and, BitVec.getLsbD_not, hi, decide_true, Bool.true_and]
    cases e.getLsbD i <;> cases x.getLsbD i <;> simp
  · intro hw
    exact ⟨w &&& ~~~m, by simp [BitVec.and_assoc], hw⟩

/-- The slots a descriptor claims are the words `encoding | x` with `x & mask = 0` (30_encoding.md R61). -/
theorem mem_claimedSlots_iff_exists (d : Descriptor) (w : Word) :
    w.toNat ∈ claimedSlots d ↔ ∃ x : Word, x &&& d.mask = 0#16 ∧ w = d.encoding ||| x := by
  have hprefix : w.toNat >>> 16 = 0 := Nat.shiftRight_eq_zero _ _ w.isLt
  calc w.toNat ∈ claimedSlots d
    _ ↔ ∀ i < 16, w.getLsbD i = (d.encoding.getLsbD i || (w.getLsbD i && !d.mask.getLsbD i)) := by
      simp only [claimedSlots, mem_slotWords, hprefix, true_and, BitVec.testBit_toNat]
    _ ↔ w = d.encoding ||| (w &&& ~~~d.mask) := by
      rw [BitVec.eq_of_getLsbD_eq_iff]
      simp +contextual
    _ ↔ _ := (exists_free_bits_iff _ _ _).symm

/-- Settles O43: a slot reads the reference exactly when it is claimed, and the claimed slots are those of R61. -/
theorem applyWritesClaimedSlots : Obligations.ApplyWritesClaimedSlots := by
  intro t k d w ht
  rw [romRead_romApply ht, ← mem_claimedSlots_iff_exists]
  exact ⟨fun hmem => if_pos hmem, fun hnot => if_neg hnot⟩

end Sys2Proof.Machine
end

section
/-! Settles O13, O14, O18 and O23: the register accesses whose effect is their register's alone. A tag selects its
operation; a read that clears nothing returns the register's byte, whose fields the laws of the layouts give and whose
other bits are 0; a write leaves the masked store's fields, or is rejected for a status register. -/

namespace Sys2Proof.Machine

/-- An 8-bit operand is the low byte of the data; the byte above it is ignored (30_encoding.md R66). -/
theorem imm8_mkTxn (t : BitVec 8) (d : Word) : imm8 (mkTxn t d) = d.extractLsb' 0 8 := by
  apply BitVec.eq_of_getLsbD_eq
  intro i hi
  have h : i < 16 := by omega
  simp only [imm8, BitVec.getLsbD_extractLsb', getLsbD_mkTxn, Nat.zero_add, h, if_true]

/-- A transaction selects the operation that the row listing its tag gives. -/
theorem decodeTxn_mkTxn {tag : BitVec 8} {d : Word} {i : Instr}
    (h : (tagMap.find? (fun r => r.tag == tag)).map (·.instr (mkTxn tag d)) = some i) :
    decodeTxn (mkTxn tag d) = .ok i := by
  obtain ⟨row, hrow, rfl⟩ := Option.map_eq_some_iff.mp h
  exact decodeTxn_of_row (by rw [txnTag_mkTxn]; exact hrow)

/-- The tag of a register's read is its select index (30_encoding.md R67, R70). -/
theorem tagSelects_readInstr (r : Reg) : TagSelects (BitVec.ofNat 8 (regSel r)) (readInstr r) := by
  intro d
  cases r <;> exact decodeTxn_mkTxn rfl

/-- The tag of a register's write is 0x10 above its select index (30_encoding.md R67, R70). -/
theorem tagSelectsByte_writeInstr (r : Reg) :
    TagSelectsByte (BitVec.ofNat 8 (0x10 + regSel r)) (writeInstr · r) := by
  intro d
  rw [← imm8_mkTxn (BitVec.ofNat 8 (0x10 + regSel r)) d]
  cases r <;> exact decodeTxn_mkTxn rfl

/-- A read that clears nothing returns the register's byte and changes nothing (41_register_access.md R101). -/
theorem exec_readInstr {s : State} {r : Reg} {b : Byte} (hview : regView s.sio r = some b)
    (hcr : r ≠ .cr) (hrst : r ≠ .rst) : exec (readInstr r) s = .next (s.withOut (.done (.value b) [])) := by
  cases r with
  | buf => cases hview
  | cr => exact absurd rfl hcr
  | rst => exact absurd rfl hrst
  | _ => cases hview; rfl

/-- The bits of a register that hold a field (30_encoding.md R71 to R83). `BUF` has no layout. -/
def fieldMask : Reg → Byte
  | .en => 0x01
  | .buf => 0x00
  | .cr => 0x1D
  | .mod0 => 0x2C
  | .brcr => 0x7F
  | .bradd => 0x0F
  | .mod1 => 0x7E
  | .mod2 => 0xE3
  | .rfc => 0xC3
  | .tfc => 0xC3
  | .rst => 0x87
  | .tst => 0x07
  | .fcnf => 0x17

/-- Every bit of a register outside its fields reads 0. -/
theorem regView_and_not_fieldMask {u : Sio} {r : Reg} {b : Byte} (hview : regView u r = some b) :
    b &&& ~~~fieldMask r = 0#8 := by
  cases r <;> cases hview
  case en => rcases u.en with ⟨sioe⟩; revert sioe; decide
  case cr => rcases u.cr with ⟨oerr, perr, ferr, ioc⟩; revert oerr perr ferr ioc; decide
  case mod0 => rcases u.mod0 with ⟨rxe, sm⟩; revert rxe sm; decide
  case brcr => rcases u.brcr with ⟨adde, ck, n⟩; revert adde ck n; decide
  case bradd => rcases u.bradd with ⟨k⟩; revert k; decide
  case mod1 => rcases u.mod1 with ⟨fdpx, txe, sint⟩; revert fdpx txe sint; decide
  case mod2 => rcases u.mod2 with ⟨tbe, rbf, txrun, swrst⟩; revert tbe rbf txrun swrst; decide
  case rfc => rcases u.rfc with ⟨rfcs, rfis, ril⟩; revert rfcs rfis ril; decide
  case tfc => rcases u.tfc with ⟨tfcs, tfis, til⟩; revert tfcs tfis til; decide
  case rst =>
    unfold rstByte
    generalize u.rst.ror = ror, level u.rxq = rlvl
    revert ror rlvl; decide
  case tst => unfold tstByte; generalize level u.txq = tlvl; revert tlvl; decide
  case fcnf => rcases u.fcnf with ⟨rfst, rfie, rxtxcnt, cnfg⟩; revert rfst rfie rxtxcnt cnfg; decide

/-- A bit of a register outside its fields reads 0. -/
theorem getLsbD_reserved {u : Sio} {r : Reg} {b : Byte} (hview : regView u r = some b) {n : Nat}
    (hn : (~~~fieldMask r).getLsbD n = true) : b.getLsbD n = false := by
  have hbit := congrArg (·.getLsbD n) (regView_and_not_fieldMask hview)
  simpa only [BitVec.getLsbD_and, hn, Bool.and_true, BitVec.getLsbD_zero] using hbit

/-- A run of bits of a register outside its fields reads 0. -/
theorem extractLsb'_reserved {u : Sio} {r : Reg} {b : Byte} (hview : regView u r = some b) {k n : Nat}
    (h : ∀ j < n, (~~~fieldMask r).getLsbD (k + j) = true) : b.extractLsb' k n = 0#n := by
  apply BitVec.eq_of_getLsbD_eq
  intro j hj
  simp only [BitVec.getLsbD_extractLsb', getLsbD_reserved hview (h j hj), Bool.and_false, BitVec.getLsbD_zero]

/-- WR.EN stores `SIOE` (41_register_access.md R107). -/
theorem exec_wrEn (v : Byte) (s : State) :
    exec (.wrEn v) s = .next ((s.withSio (s.sio.withEn ⟨v.getLsbD 0⟩)).withOut (.done .ok [])) := by
  rw [← En.ofByte_maskedStore s.sio.en v]; rfl

/-- WR.CR stores `IOC` and keeps the three sticky flags (41_register_access.md R105). -/
theorem exec_wrCr (v : Byte) (s : State) :
    exec (.wrCr v) s =
      .next ((s.withSio (s.sio.withCr { s.sio.cr with ioc := v.getLsbD 0 })).withOut (.done .ok [])) := by
  rw [← Cr.ofByte_maskedStore s.sio.cr v]; rfl

/-- WR.FCNF stores its four fields (41_register_access.md R128). -/
theorem exec_wrFcnf (v : Byte) (s : State) :
    exec (.wrFcnf v) s =
      .next ((s.withSio (s.sio.withFcnf ⟨v.getLsbD 4, v.getLsbD 2, v.getLsbD 1, v.getLsbD 0⟩)).withOut
        (.done .ok [])) := by
  rw [← Fcnf.ofByte_maskedStore s.sio.fcnf v]; rfl

/-- A write to a status register is rejected with its select index, whatever the value (41_register_access.md R124,
R126). -/
theorem exec_writeInstr_status {r : Reg} (hr : r = .rst ∨ r = .tst) (v : Byte) (s : State) :
    exec (writeInstr v r) s = .next (s.withOut (.rejected (.readOnlyWrite (regSel r)))) := by
  obtain rfl | rfl := hr <;> rfl

/-- Settles O18: the masked stores of `EN`, `CR` and `FCNF`, field by field. -/
theorem writesPlainFields : Obligations.WritesPlainFields :=
  ⟨tagSelectsByte_writeInstr .en, tagSelectsByte_writeInstr .cr, tagSelectsByte_writeInstr .fcnf,
    fun v s => ⟨exec_wrEn v s, exec_wrCr v s, exec_wrFcnf v s⟩⟩

/-- Settles O13: each read returns its register's byte, of which the fields read back and the other bits are 0. -/
theorem readsEnableAndModes : Obligations.ReadsEnableAndModes := by
  refine ⟨tagSelects_readInstr .en, tagSelects_readInstr .mod0, tagSelects_readInstr .mod1,
    tagSelects_readInstr .mod2, fun s => ⟨?en, ?mod0, ?mod1, ?mod2⟩⟩
  case en =>
    have hview : regView s.sio .en = some s.sio.en.toByte := rfl
    have hfields := En.ofByte_toByte s.sio.en
    exact ⟨_, exec_readInstr hview nofun nofun, congrArg En.sioe hfields, extractLsb'_reserved hview (by decide)⟩
  case mod0 =>
    have hview : regView s.sio .mod0 = some s.sio.mod0.toByte := rfl
    have hfields := Mod0.ofByte_toByte s.sio.mod0
    exact ⟨_, exec_readInstr hview nofun nofun, extractLsb'_reserved hview (by decide), congrArg Mod0.rxe hfields,
      getLsbD_reserved hview (by decide), congrArg Mod0.sm hfields, extractLsb'_reserved hview (by decide)⟩
  case mod1 =>
    have hview : regView s.sio .mod1 = some s.sio.mod1.toByte := rfl
    have hfields := Mod1.ofByte_toByte s.sio.mod1
    exact ⟨_, exec_readInstr hview nofun nofun, getLsbD_reserved hview (by decide), congrArg Mod1.fdpx hfields,
      congrArg Mod1.txe hfields, congrArg Mod1.sint hfields, getLsbD_reserved hview (by decide)⟩
  case mod2 =>
    have hview : regView s.sio .mod2 = some s.sio.mod2.toByte := rfl
    have hfields := Mod2.ofByte_toByte s.sio.mod2
    exact ⟨_, exec_readInstr hview nofun nofun, congrArg Mod2.tbe hfields, congrArg Mod2.rbf hfields,
      congrArg Mod2.txrun hfields, extractLsb'_reserved hview (by decide), congrArg Mod2.swrst hfields⟩

/-- Settles O14: each read returns its register's byte, of which the fields read back and the other bits are 0. -/
theorem readsBaudAndFifoRegisters : Obligations.ReadsBaudAndFifoRegisters := by
  refine ⟨tagSelects_readInstr .brcr, tagSelects_readInstr .bradd, tagSelects_readInstr .rfc,
    tagSelects_readInstr .tfc, tagSelects_readInstr .fcnf, fun s => ⟨?brcr, ?bradd, ?rfc, ?tfc, ?fcnf⟩⟩
  case brcr =>
    have hview : regView s.sio .brcr = some s.sio.brcr.toByte := rfl
    have hfields := Brcr.ofByte_toByte s.sio.brcr
    exact ⟨_, exec_readInstr hview nofun nofun, getLsbD_reserved hview (by decide), congrArg Brcr.adde hfields,
      congrArg Brcr.ck hfields, congrArg Brcr.s hfields⟩
  case bradd =>
    have hview : regView s.sio .bradd = some s.sio.bradd.toByte := rfl
    have hfields := Bradd.ofByte_toByte s.sio.bradd
    exact ⟨_, exec_readInstr hview nofun nofun, extractLsb'_reserved hview (by decide), congrArg Bradd.k hfields⟩
  case rfc =>
    have hview : regView s.sio .rfc = some s.sio.rfc.toByte := rfl
    have hfields := Rfc.ofByte_toByte s.sio.rfc
    exact ⟨_, exec_readInstr hview nofun nofun, congrArg Rfc.rfcs hfields, congrArg Rfc.rfis hfields,
      extractLsb'_reserved hview (by decide), congrArg Rfc.ril hfields⟩
  case tfc =>
    have hview : regView s.sio .tfc = some s.sio.tfc.toByte := rfl
    have hfields := Tfc.ofByte_toByte s.sio.tfc
    exact ⟨_, exec_readInstr hview nofun nofun, congrArg Tfc.tfcs hfields, congrArg Tfc.tfis hfields,
      extractLsb'_reserved hview (by decide), congrArg Tfc.til hfields⟩
  case fcnf =>
    have hview : regView s.sio .fcnf = some s.sio.fcnf.toByte := rfl
    have hfields := Fcnf.ofByte_toByte s.sio.fcnf
    exact ⟨_, exec_readInstr hview nofun nofun, extractLsb'_reserved hview (by decide), congrArg Fcnf.rfst hfields,
      getLsbD_reserved hview (by decide), congrArg Fcnf.rfie hfields, congrArg Fcnf.rxtxcnt hfields,
      congrArg Fcnf.cnfg hfields⟩

/-- Settles O23: both status registers reject every write, with their select index. -/
theorem writesToStatusRejected : Obligations.WritesToStatusRejected :=
  ⟨tagSelectsByte_writeInstr .rst, tagSelectsByte_writeInstr .tst,
    fun v s => ⟨exec_writeInstr_status (.inl rfl) v s, exec_writeInstr_status (.inr rfl) v s⟩⟩

end Sys2Proof.Machine
end

section
/-! Settles O1 to O9: the tag map and the step. A transaction's tag chooses a row of the map, and the row says what is
read of the data; a step performs the oldest request or rejects it. -/

namespace Sys2Proof.Machine

/-! ### What the tags select -/

/-- A tag whose row reads the low data byte selects by it (30_encoding.md R66). -/
theorem tagSelectsByte_of_row {tag : BitVec 8} {f : Byte → Instr}
    (h : ∀ w, (tagMap.find? (fun r => r.tag == tag)).map (·.instr w) = some (f (imm8 w))) :
    TagSelectsByte tag f := fun d => by
  rw [← imm8_mkTxn tag d]
  exact decodeTxn_mkTxn (h _)

/-- The transaction of an 8-bit operand selects the operation its tag gives that operand. -/
theorem decodeTxn_data8 {tag : BitVec 8} {f : Byte → Instr} (h : TagSelectsByte tag f) (v : Byte) :
    decodeTxn (mkTxn tag (data8 v)) = .ok (f v) := by
  rw [h, ← imm8_mkTxn tag, imm8_mkTxn_data8]

theorem tagSelectsByte_send : TagSelectsByte 0x40 .send := tagSelectsByte_of_row fun _ => rfl

theorem tagSelectsByte_receive : TagSelectsByte 0x41 .receive := tagSelectsByte_of_row fun _ => rfl

theorem tagSelects_tick : TagSelects 0x42 .tick := fun _ => decodeTxn_mkTxn rfl

theorem tagSelects_freq : TagSelects 0x43 .freq := fun _ => decodeTxn_mkTxn rfl

theorem decodeTxn_lookup (w : Word) : decodeTxn (mkTxn 0x80 w) = .ok (.decLookup w) :=
  decodeTxn_mkTxn (congrArg (some <| Instr.decLookup ·) (imm16_mkTxn 0x80 w))

theorem decodeTxn_build (c : Word) : decodeTxn (mkTxn 0x81 c) = .ok (.decBuild c) :=
  decodeTxn_mkTxn (congrArg (some <| Instr.decBuild ·) (imm16_mkTxn 0x81 c))

/-- Settles O1: an operation without operand is its tag's, one with a byte or a word is its tag's for that operand. -/
theorem decodeEncode : Obligations.DecodeEncode := by
  intro i _
  cases i with
  | rdEn | rdBuf | rdCr | rdMod0 | rdBrcr | rdBradd | rdMod1 | rdMod2 | rdRfc | rdTfc | rdRst | rdTst | rdFcnf
  | tick | freq => simp only [encode, Request.decode]; exact decodeTxn_mkTxn rfl
  | wrEn v | wrBuf v | wrCr v | wrMod0 v | wrBrcr v | wrBradd v | wrMod1 v | wrMod2 v | wrRfc v | wrTfc v | wrRst v
  | wrTst v | wrFcnf v | send v | receive v => exact decodeTxn_data8 (tagSelectsByte_of_row fun _ => rfl) v
  | decLookup w => exact decodeTxn_lookup w
  | decBuild c => exact decodeTxn_build c
  | unknown w => rfl

/-! ### The rows of the tag map -/

/-- A transaction that decodes is given its operation by a row of the map, the one with its tag. -/
theorem exists_row_of_decodeTxn {w : Txn} {i : Instr} (h : decodeTxn w = .ok i) :
    ∃ row ∈ tagMap, row.tag = txnTag w ∧ row.instr w = i := by
  unfold decodeTxn at h
  split at h
  · next row hrow =>
    exact ⟨row, List.mem_of_find?_eq_some hrow, by simpa using List.find?_some hrow, Except.ok.inj h⟩
  · cases h

/-- Every row gives operations whose canonical transaction has the row's tag (30_encoding.md R67). -/
theorem encode_row (w : Txn) : ∀ row ∈ tagMap, ∃ d : Word, encode (row.instr w) = .txn (mkTxn row.tag d) := by
  simp only [tagMap, readRows, writeRows, otherRows, List.cons_append, List.nil_append, List.forall_mem_cons,
    List.not_mem_nil, false_imp_iff, implies_true, and_true]
  and_intros <;> exact ⟨_, rfl⟩

/-- Settles O2: the row that decodes the transaction encodes its operation with the same tag. -/
theorem encodingKeepsTag : Obligations.EncodingKeepsTag := by
  intro w i hw
  obtain ⟨row, hrow, htag, rfl⟩ := exists_row_of_decodeTxn hw
  obtain ⟨d, hd⟩ := encode_row w row hrow
  rw [htag] at hd
  refine ⟨d, hd, ?_⟩
  have hround := decodeEncode (row.instr w) rfl
  rwa [hd] at hround

/-- Two transactions with one tag decode alike when every row of that tag reads them alike. -/
theorem decodeTxn_congr {w w' : Txn} (htag : txnTag w = txnTag w')
    (h : ∀ row ∈ tagMap, row.tag = txnTag w → row.instr w = row.instr w') : decodeTxn w = decodeTxn w' := by
  unfold decodeTxn
  rw [← htag]
  split
  · next row hrow =>
    rw [h row (List.mem_of_find?_eq_some hrow) (by simpa using List.find?_some hrow)]
  · rfl

/-- A row of a read, of TICK or of FREQ gives one operation, whatever the transaction (30_encoding.md R67). -/
theorem instr_row_of_no_operand (w w' : Txn) : ∀ row ∈ tagMap,
    (row.tag.toNat < 0x10 ∨ row.tag = 0x42#8 ∨ row.tag = 0x43#8) → row.instr w = row.instr w' := by
  simp [tagMap, readRows, writeRows, otherRows]

/-- A row below the decoder port's tags reads at most the low data byte (30_encoding.md R66). -/
theorem instr_row_of_byte {w w' : Txn} (hbyte : imm8 w = imm8 w') :
    ∀ row ∈ tagMap, row.tag.toNat < 0x80 → row.instr w = row.instr w' := by
  simp [tagMap, readRows, writeRows, otherRows, hbyte]

/-- Settles O3: the rows of the tags without operand read nothing of the data, those below the decoder port's at most
its low byte. -/
theorem ignoredBitsHaveNoEffect : Obligations.IgnoredBitsHaveNoEffect := fun w w' htag =>
  ⟨fun hnone => decodeTxn_congr htag fun row hrow ht => instr_row_of_no_operand w w' row hrow (by rwa [ht]),
    fun hlt hbyte => decodeTxn_congr htag fun row hrow ht => instr_row_of_byte hbyte row hrow (by rwa [ht])⟩

/-- The tags of the map, in the order of its rows. -/
theorem tags_tagMap : tagMap.map (·.tag.toNat) =
    List.range' 0x00 13 ++ List.range' 0x10 13 ++ List.range' 0x40 4 ++ List.range' 0x80 2 := rfl

/-- The map has a row for exactly the tags 30_encoding.md R67 lists. -/
theorem exists_row_iff_listedTag (t : BitVec 8) : (∃ row ∈ tagMap, row.tag = t) ↔ ListedTag t.toNat := by
  have hmem : (∃ row ∈ tagMap, row.tag = t) ↔ t.toNat ∈ tagMap.map (·.tag.toNat) := by
    simp only [List.mem_map, BitVec.toNat_inj]
  rw [hmem, tags_tagMap, ListedTag]
  simp only [List.mem_append, List.mem_range'_1]
  omega

/-- A transaction with a listed tag decodes. -/
theorem decodeTxn_of_listedTag {w : Txn} (h : ListedTag (txnTag w).toNat) : ∃ i, decodeTxn w = .ok i := by
  obtain ⟨row, hrow, htag⟩ := (exists_row_iff_listedTag _).mpr h
  have hsome : (tagMap.find? fun r => r.tag == txnTag w).isSome :=
    List.find?_isSome.mpr ⟨row, hrow, by simpa using htag⟩
  exact ⟨_, decodeTxn_of_row (Option.eq_some_of_isSome hsome)⟩

/-- A transaction with an unlisted tag is rejected with what 30_encoding.md R68 gives for its tag. -/
theorem decodeTxn_of_not_listedTag {w : Txn} (h : ¬ ListedTag (txnTag w).toNat) :
    decodeTxn w = .error (badTag (txnTag w)) := by
  have hnone : tagMap.find? (fun r => r.tag == txnTag w) = none :=
    List.find?_eq_none.mpr fun row hrow htag =>
      h ((exists_row_iff_listedTag _).mp ⟨row, hrow, by simpa using htag⟩)
  simp only [decodeTxn, hnone]

/-! ### The step -/

/-- A step runs the operation the oldest request decodes to, on the state without the request. -/
theorem step_of_decode_ok {s : State} {q : Request} {rest : List Request} {i : Instr} (hp : s.pending = q :: rest)
    (hd : q.decode = .ok i) : step s = exec i (s.withPending rest) := by
  simp only [step, hp, perform, hd]

/-- A step rejects the oldest request when it does not decode, and changes nothing else (30_encoding.md R68). -/
theorem step_of_decode_error {s : State} {q : Request} {rest : List Request} {e : Rejection}
    (hp : s.pending = q :: rest) (hd : q.decode = .error e) :
    step s = .next ((s.withPending rest).withOut (.rejected e)) := by
  simp only [step, hp, perform, hd]; rfl

/-- With nothing presented a step only lets the output port fall idle (log 2). -/
theorem step_of_pending_nil {s : State} (hp : s.pending = []) : step s = .next (s.withOut .idle) := by
  simp only [step, hp]

/-- Settles O4: the three classes of tags, by whether the map lists them and by what `badTag` gives where it does not. -/
theorem unlistedTagRejected : Obligations.UnlistedTagRejected := by
  intro w s rest hp
  refine ⟨decodeTxn_of_listedTag, fun hun => ?_, fun hlist hun => ?_⟩
  · have hlist : ¬ ListedTag (txnTag w).toNat := by
      unfold ListedTag; unfold UnmappedTag at hun; omega
    have hlow : (txnTag w).toNat < 0x20 := by unfold UnmappedTag at hun; omega
    rw [step_of_decode_error hp (decodeTxn_of_not_listedTag hlist), badTag, if_pos hlow]
  · have hhigh : ¬ (txnTag w).toNat < 0x20 := by
      unfold ListedTag at hlist; unfold UnmappedTag at hun; omega
    rw [step_of_decode_error hp (decodeTxn_of_not_listedTag hlist), badTag, if_neg hhigh]

/-- A one-byte access at a register's offset reaches it (20_memory.md R48, R50). -/
theorem decodeAccess_register (r : Reg) : decodeAccess (4 * regSel r) 1 = .ok r := by cases r <;> rfl

/-- An access of another size, unaligned, or beyond the last register is `UnmappedRegister` (20_memory.md R50). -/
theorem decodeAccess_unmapped {addr n : Nat} (h : n ≠ 1 ∨ addr % 4 ≠ 0 ∨ 48 < addr) :
    decodeAccess addr n = .error (.unmappedRegister addr) := by
  unfold decodeAccess
  by_cases hn : n = 1
  · have hnone : regOfOffset addr = none := by
      unfold regOfOffset
      by_cases ha : addr % 4 = 0
      · have hsel : regList.length ≤ addr / 4 := by simp only [regList, List.length_cons, List.length_nil]; omega
        rw [if_pos ha, regOfSel, List.getElem?_eq_none hsel]
      · exact if_neg ha
    rw [if_pos hn, hnone]
  · exact if_neg hn

/-- Settles O5: the access decodes to the register operation, or to the rejection. -/
theorem busAccessIsRegisterOperation : Obligations.BusAccessIsRegisterOperation := by
  refine fun s rest v => ⟨fun r => ⟨fun hp => ?read, fun hp => ?write⟩, fun addr n hbad hp => ?_⟩
  case read => exact step_of_decode_ok hp (by simp only [Request.decode, decodeAccess_register]; rfl)
  case write => exact step_of_decode_ok hp (by simp only [Request.decode, decodeAccess_register]; rfl)
  have hdec := decodeAccess_unmapped hbad
  obtain hp | hp := hp <;> exact step_of_decode_error hp (by simp only [Request.decode, hdec]; rfl)

/-- Settles O6: the decoder run on the ten words. -/
theorem specWordsDecode : Obligations.SpecWordsDecode :=
  ⟨rfl, rfl, rfl, rfl, rfl, rfl, rfl, rfl, rfl, rfl⟩

/-- A script's requests decode as the transactions of its lines, in order. -/
theorem map_decode_scriptRequests (ls : List Line) :
    (scriptRequests ls).map Request.decode = (ls.map lineTxns).flatten.map decodeTxn := by
  simp only [scriptRequests, List.map_map]; rfl

/-- Settles O7: each line's transactions are the canonical ones of its operations. -/
theorem scriptLinesPresentOperations : Obligations.ScriptLinesPresentOperations := by
  intro r v w n
  have hwr (r : Reg) (v : Byte) : decodeTxn (wrTxn r v) = .ok (writeInstr v r) :=
    decodeTxn_data8 (tagSelectsByte_writeInstr r) v
  simp only [map_decode_scriptRequests, List.map_cons, List.map_nil, lineTxns, List.flatten_cons, List.flatten_nil,
    List.append_nil, List.cons_append, List.nil_append, List.map_replicate, hwr,
    decodeTxn_data8 tagSelectsByte_send, decodeTxn_data8 tagSelectsByte_receive, tagSelects_tick 0, tagSelects_freq 0,
    decodeTxn_lookup, decodeTxn_build]
  exact ⟨congrArg ([·]) (tagSelects_readInstr r 0), trivial, trivial, rfl, trivial⟩

/-- Settles O8: a step on a request that decodes. -/
theorem stepRunsDecoded : Obligations.StepRunsDecoded := fun _ _ _ _ hp hd _ => step_of_decode_ok hp hd

/-- A row of the opcode table that decodes is a request that does. -/
theorem tableRequest_decode {nbits w : Nat} {i : Instr} (h : decodeTableWord nbits w = some i) :
    (tableRequest nbits w).decode = .ok i := by
  unfold decodeTableWord at h
  split at h
  · next hd => rw [hd, Option.some.inj h]
  · cases h

/-- Settles O9: an idle step, and a step on the request `withFetchWord` puts first. -/
theorem idleStepsAndPlacedWords : Obligations.IdleStepsAndPlacedWords := fun _ =>
  ⟨step_of_pending_nil, fun _ _ _ h => step_of_decode_ok (State.withPending_pending _ _) (tableRequest_decode h)⟩

end Sys2Proof.Machine
end

section
/-! Settles O15 to O17, O19 to O22, O25 and O26: the register accesses that clear a flag, move a queue or have a side
effect of their own, and the masked store every write is. -/

namespace Sys2Proof.Machine

/-! ### Reads that clear -/

/-- RD.CR returns `CR` and clears the three sticky flags (41_register_access.md R104). -/
theorem exec_rdCr (s : State) : exec .rdCr s =
    .next ((s.withSio (s.sio.withCr ⟨false, false, false, s.sio.cr.ioc⟩)).withOut
      (.done (.value s.sio.cr.toByte) [])) := rfl

/-- RD.RST returns `RST` and clears `ROR` (41_register_access.md R123). -/
theorem exec_rdRst (s : State) : exec .rdRst s =
    .next ((s.withSio (s.sio.withRst ⟨false⟩)).withOut (.done (.value (rstByte s.sio)) [])) := rfl

/-- Settles O15: the byte returned is `CR` as it was, of which the fields read back and the other bits are 0. -/
theorem readCrClearsStickyFlags : Obligations.ReadCrClearsStickyFlags := by
  refine ⟨tagSelects_readInstr .cr, fun s => ⟨_, exec_rdCr s, ?_⟩⟩
  have hview : regView s.sio .cr = some s.sio.cr.toByte := rfl
  have hfields := Cr.ofByte_toByte s.sio.cr
  exact ⟨extractLsb'_reserved hview (by decide), congrArg Cr.oerr hfields, congrArg Cr.perr hfields,
    congrArg Cr.ferr hfields, getLsbD_reserved hview (by decide), congrArg Cr.ioc hfields⟩

/-- `ROR` is bit 7 of `RST` and the level its low three bits (30_encoding.md R81). -/
theorem rstByte_fields (u : Sio) :
    (rstByte u).getLsbD 7 = u.rst.ror ∧ ((rstByte u).extractLsb' 0 3).toNat = min u.rxq.length 7 := by
  rw [← level_toNat]
  unfold rstByte
  generalize u.rst.ror = ror, level u.rxq = rlvl
  revert ror rlvl; decide

/-- `TST` as a number is the level (30_encoding.md R82). -/
theorem tstByte_toNat (u : Sio) : (tstByte u).toNat = min u.txq.length 7 := by
  rw [← level_toNat]
  unfold tstByte
  generalize level u.txq = tlvl
  revert tlvl; decide

/-- Settles O16: the two status bytes, field by field. -/
theorem readsStatusRegisters : Obligations.ReadsStatusRegisters := by
  refine ⟨tagSelects_readInstr .rst, tagSelects_readInstr .tst, fun s => ⟨⟨_, exec_rdRst s, ?_⟩, ?_⟩⟩
  · have hview : regView s.sio .rst = some (rstByte s.sio) := rfl
    obtain ⟨hror, hlevel⟩ := rstByte_fields s.sio
    exact ⟨hror, extractLsb'_reserved hview (by decide), hlevel⟩
  · exact ⟨_, exec_readInstr (r := .tst) rfl nofun nofun, tstByte_toNat s.sio⟩

/-! ### RD.BUF -/

theorem exec_rdBuf (s : State) : exec .rdBuf s = .next (s.commit (.ok (readBuf s.sio))) := rfl

/-- Settles O17: the four ways of `readBuf`. -/
theorem readBufDelivers : Obligations.ReadBufDelivers := by
  refine ⟨tagSelects_readInstr .buf, fun s => ⟨fun hcnfg hrbf => ?slot, fun hcnfg hrbf => ?slotEmpty,
    fun v q hcnfg hq => ?queue, fun hcnfg hq => ?queueEmpty⟩⟩
  case slot => rw [exec_rdBuf, readBuf, if_neg (by simp [hcnfg]), if_pos hrbf]; rfl
  case slotEmpty => rw [exec_rdBuf, readBuf, if_neg (by simp [hcnfg]), if_neg (by simp [hrbf])]; rfl
  case queue => rw [exec_rdBuf, readBuf, if_pos hcnfg, hq]; rfl
  case queueEmpty => rw [exec_rdBuf, readBuf, if_pos hcnfg, hq]; rfl

/-! ### Writes, field by field -/

theorem exec_wrBrcr (v : Byte) (s : State) : exec (.wrBrcr v) s =
    .next ((s.withSio (s.sio.withBrcr ⟨v.getLsbD 6, v.extractLsb' 4 2, v.extractLsb' 0 4⟩)).withOut
      (.done .ok [])) := by
  rw [← Brcr.ofByte_maskedStore s.sio.brcr v]; rfl

theorem exec_wrBradd (v : Byte) (s : State) : exec (.wrBradd v) s =
    .next ((s.withSio (s.sio.withBradd ⟨v.extractLsb' 0 4⟩)).withOut (.done .ok [])) := by
  rw [← Bradd.ofByte_maskedStore s.sio.bradd v]; rfl

/-- Settles O19: both writes store the fields of the byte, whatever they are. -/
theorem writesBaudRegisters : Obligations.WritesBaudRegisters :=
  ⟨tagSelectsByte_writeInstr .brcr, tagSelectsByte_writeInstr .bradd,
    fun v s => ⟨exec_wrBrcr v s, exec_wrBradd v s⟩⟩

/-- WR.MOD0 stores its fields and logs a serial mode other than 0 (41_register_access.md R109). -/
theorem exec_wrMod0 (v : Byte) (s : State) : exec (.wrMod0 v) s =
    .next ((s.withSio (s.sio.withMod0 ⟨v.getLsbD 5, v.extractLsb' 2 2⟩)).withOut
      (.done .ok (if v.extractLsb' 2 2 = 0#2 then [] else [.log .uartModeUnimplemented]))) := by
  rw [← Mod0.ofByte_maskedStore s.sio.mod0 v]; rfl

theorem exec_wrMod1 (v : Byte) (s : State) : exec (.wrMod1 v) s =
    .next ((s.withSio (s.sio.withMod1 ⟨v.extractLsb' 5 2, v.getLsbD 4, v.extractLsb' 1 3⟩)).withOut
      (.done .ok [])) := by
  rw [← Mod1.ofByte_maskedStore s.sio.mod1 v]; rfl

/-- Settles O20: the stores of `MOD0` and `MOD1`, the warning by the mode written. -/
theorem writesModes : Obligations.WritesModes := by
  refine ⟨tagSelectsByte_writeInstr .mod0, tagSelectsByte_writeInstr .mod1, fun v s =>
    ⟨fun hio => ?_, fun huart => ?_, exec_wrMod1 v s⟩⟩
  · rw [exec_wrMod0, if_pos hio, hio]
  · rw [exec_wrMod0, if_neg huart]

/-- WR.MOD2 stores `SWRST`, and 0b01 over a stored 0b10 soft-resets as well (41_register_access.md R112). -/
theorem exec_wrMod2 (v : Byte) (s : State) : exec (.wrMod2 v) s =
    .next ((s.withSio (if s.sio.mod2.swrst = 2#2 ∧ v.extractLsb' 0 2 = 1#2
        then softReset (s.sio.withMod2 { s.sio.mod2 with swrst := v.extractLsb' 0 2 })
        else s.sio.withMod2 { s.sio.mod2 with swrst := v.extractLsb' 0 2 })).withOut (.done .ok [])) := by
  rw [← Mod2.ofByte_maskedStore s.sio.mod2 v]; rfl

/-- The write that does not complete a soft reset stores `SWRST` and changes nothing else. -/
theorem exec_wrMod2_plain {v : Byte} {s : State} (h : ¬ (s.sio.mod2.swrst = 2#2 ∧ v.extractLsb' 0 2 = 1#2)) :
    exec (.wrMod2 v) s =
      .next ((s.withSio (s.sio.withMod2 { s.sio.mod2 with swrst := v.extractLsb' 0 2 })).withOut (.done .ok [])) := by
  rw [exec_wrMod2, if_neg h]

/-- The SIO after the write that completes a soft reset (41_register_access.md R114). -/
def softResetSio (u : Sio) : Sio :=
  (((u.withMod0 { u.mod0 with rxe := false }).withMod1 { u.mod1 with txe := false }).withMod2
    ⟨false, false, false, 1#2⟩).withCr ⟨false, false, false, u.cr.ioc⟩

/-- The write that completes a soft reset also clears the eight bits (41_register_access.md R114). -/
theorem exec_wrMod2_softReset {v : Byte} {s : State} (hold : s.sio.mod2.swrst = 2#2)
    (hnew : v.extractLsb' 0 2 = 1#2) :
    exec (.wrMod2 v) s = .next ((s.withSio (softResetSio s.sio)).withOut (.done .ok [])) := by
  rw [exec_wrMod2, if_pos ⟨hold, hnew⟩, hnew]; rfl

/-- Settles O21: the two cases of the write. -/
theorem writeMod2SoftResets : Obligations.WriteMod2SoftResets :=
  ⟨tagSelectsByte_writeInstr .mod2, fun _ _ => ⟨exec_wrMod2_plain, exec_wrMod2_softReset⟩⟩

/-- WR.RFC stores its fields and empties `rxq` when `RFCS` goes 0 to 1 (41_register_access.md R120). -/
theorem exec_wrRfc (v : Byte) (s : State) : exec (.wrRfc v) s =
    .next ((s.withSio ((s.sio.withRfc ⟨v.getLsbD 7, v.getLsbD 6, v.extractLsb' 0 2⟩).withRxq
      (if s.sio.rfc.rfcs = false ∧ v.getLsbD 7 = true then [] else s.sio.rxq))).withOut (.done .ok [])) := by
  rw [← Rfc.ofByte_maskedStore s.sio.rfc v, show exec (.wrRfc v) s = execWrRfc v s from rfl, execWrRfc]
  split <;> rfl

/-- WR.TFC stores its fields and empties `txq` when `TFCS` goes 0 to 1 (41_register_access.md R122). -/
theorem exec_wrTfc (v : Byte) (s : State) : exec (.wrTfc v) s =
    .next ((s.withSio ((s.sio.withTfc ⟨v.getLsbD 7, v.getLsbD 6, v.extractLsb' 0 2⟩).withTxq
      (if s.sio.tfc.tfcs = false ∧ v.getLsbD 7 = true then [] else s.sio.txq))).withOut (.done .ok [])) := by
  rw [← Tfc.ofByte_maskedStore s.sio.tfc v, show exec (.wrTfc v) s = execWrTfc v s from rfl, execWrTfc]
  split <;> rfl

/-- Settles O22: the two stores, each with the queue its clear bit empties. -/
theorem writesFifoControl : Obligations.WritesFifoControl :=
  ⟨tagSelectsByte_writeInstr .rfc, tagSelectsByte_writeInstr .tfc, fun v s => ⟨exec_wrRfc v s, exec_wrTfc v s⟩⟩

/-! ### Every write is a masked store -/

/-- The SIO with the fields of register `r` as they stand in the byte `b`. -/
def storeByte (u : Sio) : Reg → Byte → Sio
  | .en, b => u.withEn (.ofByte b)
  | .cr, b => u.withCr (.ofByte b)
  | .mod0, b => u.withMod0 (.ofByte b)
  | .brcr, b => u.withBrcr (.ofByte b)
  | .bradd, b => u.withBradd (.ofByte b)
  | .mod1, b => u.withMod1 (.ofByte b)
  | .mod2, b => u.withMod2 (.ofByte b)
  | .rfc, b => u.withRfc (.ofByte b)
  | .tfc, b => u.withTfc (.ofByte b)
  | .fcnf, b => u.withFcnf (.ofByte b)
  | .buf, _ | .rst, _ | .tst, _ => u

/-- A register that a write stores into: not `BUF`, which is no masked store, and no status register. -/
def Stored (r : Reg) : Prop := r ≠ .buf ∧ r ≠ .rst ∧ r ≠ .tst

/-- A byte that is 0 outside the fields of a register reads back from it. -/
theorem regView_storeByte (u : Sio) {r : Reg} {b : Byte} (hr : Stored r) (hb : b &&& ~~~fieldMask r = 0#8) :
    regView (storeByte u r b) r = some b := by
  obtain ⟨hbuf, hrst, htst⟩ := hr
  cases r with
  | buf => exact absurd rfl hbuf
  | rst => exact absurd rfl hrst
  | tst => exact absurd rfl htst
  | _ =>
    simp only [regView, storeByte, Sio.withEn_en, Sio.withCr_cr, Sio.withMod0_mod0, Sio.withBrcr_brcr,
      Sio.withBradd_bradd, Sio.withMod1_mod1, Sio.withMod2_mod2, Sio.withRfc_rfc, Sio.withTfc_tfc,
      Sio.withFcnf_fcnf]
    revert b; decide

/-- The masked store of a register is 0 outside its fields, as the register was. -/
theorem maskedStore_and_not_fieldMask {u : Sio} {r : Reg} {x : Byte} (hview : regView u r = some x) (v : Byte) :
    maskedStore r x v &&& ~~~fieldMask r = 0#8 := by
  have hmask : wmask r &&& ~~~fieldMask r = 0#8 := by cases r <;> decide
  have hx := regView_and_not_fieldMask hview
  calc maskedStore r x v &&& ~~~fieldMask r
    _ = ((x &&& ~~~fieldMask r) &&& ~~~wmask r) ||| (v &&& (wmask r &&& ~~~fieldMask r)) := by
      refine BitVec.eq_of_getLsbD_eq fun i _ => ?_
      simp only [maskedStore, BitVec.getLsbD_or, BitVec.getLsbD_and]
      cases (~~~fieldMask r).getLsbD i <;> simp
    _ = 0#8 := by simp [hmask, hx]

/-- Only a write of `MOD2` completes a soft reset. -/
theorem completesSoftReset_writeInstr {r : Reg} {v : Byte} {u : Sio} (h : CompletesSoftReset (writeInstr v r) u) :
    r = .mod2 ∧ u.mod2.swrst = 2#2 ∧ v.extractLsb' 0 2 = 1#2 := by
  obtain ⟨hold, w, hw, hnew⟩ := h
  cases r <;> cases hw
  exact ⟨rfl, hold, hnew⟩

/-- A write stores the masked byte, unless it completes a soft reset (41_register_access.md R100). -/
theorem exec_writeInstr_stores {r : Reg} {x : Byte} {s : State} (hr : Stored r) (hview : regView s.sio r = some x)
    (v : Byte) (hreset : ¬ CompletesSoftReset (writeInstr v r) s.sio) :
    ∃ (t : State) (es : List Event), exec (writeInstr v r) s = .next t ∧ t.out = .done .ok es ∧
      regView t.sio r = regView (storeByte s.sio r (maskedStore r x v)) r := by
  obtain ⟨hbuf, hrst, htst⟩ := hr
  cases r <;> cases hview
  case rst => exact absurd rfl hrst
  case tst => exact absurd rfl htst
  case mod2 =>
    have hplain : ¬ (s.sio.mod2.swrst = 2#2 ∧ v.extractLsb' 0 2 = 1#2) := fun h => hreset ⟨h.1, v, rfl, h.2⟩
    exact ⟨_, _, exec_wrMod2_plain hplain, rfl, by rw [storeByte, Mod2.ofByte_maskedStore]; rfl⟩
  case rfc => exact ⟨_, _, exec_wrRfc v s, rfl, by rw [storeByte, Rfc.ofByte_maskedStore]; rfl⟩
  case tfc => exact ⟨_, _, exec_wrTfc v s, rfl, by rw [storeByte, Tfc.ofByte_maskedStore]; rfl⟩
  all_goals exact ⟨_, _, rfl, rfl, rfl⟩

/-- The write that completes a soft reset leaves `SWRST` as written and the status bits 0 (41_register_access.md R114). -/
theorem softReset_mod2_toByte (r : Mod2) {v : Byte} (hnew : v.extractLsb' 0 2 = 1#2) :
    (⟨false, false, false, 1#2⟩ : Mod2).toByte = maskedStore .mod2 r.toByte v &&& 0x1F := by
  have hz : maskedStore .mod2 r.toByte v &&& ~~~fieldMask .mod2 = 0#8 :=
    maskedStore_and_not_fieldMask (u := Sio.reset.withMod2 r) rfl v
  have hlow : (maskedStore .mod2 r.toByte v).extractLsb' 0 2 = 1#2 :=
    (extractLsb'_maskedStore .mod2 r.toByte v 0 2 (by decide)).trans hnew
  revert hz hlow
  generalize maskedStore .mod2 r.toByte v = b
  revert b; decide

/-- Settles O25: the masked byte is stored, and the write that completes a soft reset clears its status bits. -/
theorem writeIsMaskedStore : Obligations.WriteIsMaskedStore := by
  intro r v x s hbuf hrst htst hview
  have hstored : Stored r := ⟨hbuf, hrst, htst⟩
  by_cases hreset : CompletesSoftReset (writeInstr v r) s.sio
  · obtain ⟨rfl, hold, hnew⟩ := completesSoftReset_writeInstr hreset
    refine ⟨_, _, exec_wrMod2_softReset hold hnew, rfl, fun hnot => absurd hreset hnot, fun _ => ?_⟩
    cases hview
    exact congrArg some (softReset_mod2_toByte s.sio.mod2 hnew)
  · obtain ⟨t, es, hexec, hout, hread⟩ := exec_writeInstr_stores hstored hview v hreset
    refine ⟨t, es, hexec, hout, fun _ => ?_, fun h => absurd h hreset⟩
    rw [hread, regView_storeByte _ hstored (maskedStore_and_not_fieldMask hview v)]; rfl

/-- A read of a stored register answers its byte, those that clear included (41_register_access.md R101, R104). -/
theorem exec_readInstr_value {s : State} {r : Reg} {b : Byte} (hr : Stored r) (hview : regView s.sio r = some b) :
    ∃ t, exec (readInstr r) s = .next t ∧ t.out = .done (.value b) [] := by
  obtain ⟨_, hrst, _⟩ := hr
  by_cases hcr : r = .cr
  · subst hcr; cases hview; exact ⟨_, exec_rdCr s, rfl⟩
  · exact ⟨_, exec_readInstr hview hcr hrst, rfl⟩

/-- Ones written over a register that is 0 outside its write mask leave the mask (41_register_access.md R129). -/
theorem masked_ones {x m : Byte} (hx : x &&& ~~~m = 0#8) : (x &&& ~~~m) ||| (0xFF &&& m) = m := by
  rw [hx, BitVec.zero_or]; exact BitVec.allOnes_and

/-- A write of ones never completes a soft reset: its low two bits are 0b11. -/
theorem not_completesSoftReset_ones (r : Reg) (u : Sio) : ¬ CompletesSoftReset (writeInstr 0xFF r) u := fun h =>
  absurd (completesSoftReset_writeInstr h).2.2 (by decide)

/-- Settles O26: the masked store of ones, read back. -/
theorem writeOnesReadsMask : Obligations.WriteOnesReadsMask := by
  have readBack (r : Reg) (x b : Byte) (s : State) (hr : Stored r) (hview : regView s.sio r = some x)
      (hb : (x &&& ~~~wmask r) ||| (0xFF &&& wmask r) = b) :
      ∃ t t' : State, exec (writeInstr 0xFF r) s = .next t ∧ exec (readInstr r) t = .next t' ∧
        t'.out = .done (.value b) [] := by
    have ⟨hbuf, hrst, htst⟩ := hr
    obtain ⟨t, _, hexec, _, hread, _⟩ := writeIsMaskedStore r 0xFF x s hbuf hrst htst hview
    obtain ⟨t', hexec', hout'⟩ := exec_readInstr_value hr (hread (not_completesSoftReset_ones r s.sio))
    exact ⟨t, t', hexec, hexec', hb ▸ hout'⟩
  exact ⟨fun r x s hbuf hrst htst hview hx => readBack r x _ s ⟨hbuf, hrst, htst⟩ hview (masked_ones hx),
    readBack .mod2 0x80 _ State.reset (by simp [Stored]) rfl (by decide)⟩

end Sys2Proof.Machine
end

section
/-! Settles O24, O27 to O39: SEND (also through WR.BUF), RECEIVE, TICK and FREQ. Each is a reply of the SIO that the
state commits, and the laws of the shared operations say what the replies are. -/

namespace Sys2Proof.Machine

theorem exec_send (v : Byte) (s : State) : exec (.send v) s = .next (s.commit (sendReply s.sio v)) := rfl

theorem exec_wrBuf (v : Byte) (s : State) : exec (.wrBuf v) s = .next (s.commit (writeBuf s.sio v)) := rfl

theorem exec_receive (v : Byte) (s : State) :
    exec (.receive v) s = .next (s.commit (.ok (receiveReply s.params s.sio v))) := rfl

theorem exec_tick (s : State) : exec .tick s = .next (s.commit (tickReply s.params s.sio)) := rfl

theorem exec_freq (s : State) : exec .freq s = .next (s.commit (freqReply s.params s.sio)) := rfl

/-- A reply that leaves the SIO as it was changes nothing but the output port. -/
theorem commit_ok_self (s : State) (r : Result) (es : List Event) :
    s.commit (.ok ⟨s.sio, r, es⟩) = s.withOut (.done r es) := rfl

/-! ### The baud configuration -/

/-- `BaudValid()` fails exactly on the configurations 43_timing.md R156 names. -/
theorem baudValid_eq_false_iff (u : Sio) : baudValid u = false ↔ BaudInvalid u := by
  unfold baudValid BaudInvalid divisor
  generalize u.brcr.adde = adde, u.brcr.s = n, u.bradd.k = k
  revert adde n k; decide

theorem baudValid_eq_true_iff (u : Sio) : baudValid u = true ↔ ¬ BaudInvalid u := by
  rw [← baudValid_eq_false_iff, Bool.not_eq_false]

/-- The rejection of an invalid configuration names fine-adjust as set (60_exceptions.md R166). -/
theorem baudRejection_of_invalid {u : Sio} (h : BaudInvalid u) :
    baudRejection u = .configError (.baudRate true u.brcr.s u.bradd.k) := by
  rw [baudRejection, h.1]

/-! ### SEND -/

/-- A SEND registers exactly when it would newly register the SIO. -/
theorem registers_eq_true_iff (u : Sio) : registers u = true ↔ WouldRegister u := by
  simp [registers, WouldRegister]

theorem registers_eq_false_iff (u : Sio) : registers u = false ↔ ¬ WouldRegister u := by
  rw [← registers_eq_true_iff, Bool.not_eq_true]

/-- The value accepted and the SIO registered, where the SEND registers it. -/
theorem sentSio_of_wouldRegister {u : Sio} (h : WouldRegister u) (v : Byte) :
    (acceptTx u v).withScheduled true = sentSio u v := by
  obtain ⟨htxe, hs⟩ := h
  obtain ⟨hc, ha⟩ | ⟨hc, ha⟩ := acceptTx_cases u v <;> rw [ha, sentSio, htxe, hs] <;> simp [hc]

/-- The value accepted, where the SEND does not register the SIO: it is registered already, or `TXE` = 0. -/
theorem sentSio_of_not_wouldRegister {u : Sio} (h : ¬ WouldRegister u) (v : Byte) : acceptTx u v = sentSio u v := by
  have hs : (u.scheduled || u.mod1.txe) = u.scheduled := by
    unfold WouldRegister at h
    revert h; cases u.scheduled <;> cases u.mod1.txe <;> simp
  obtain ⟨hc, ha⟩ | ⟨hc, ha⟩ := acceptTx_cases u v <;> rw [ha, sentSio, hs] <;> simp only [hc] <;> rfl

/-- SEND on a disabled interface (42_datapath.md R136). -/
theorem sendReply_disabled {u : Sio} (h : u.en.sioe = false) (v : Byte) :
    sendReply u v = .ok ⟨u, .dropped, [.log .sendDropped]⟩ := if_pos h

/-- SEND that would register with an invalid baud configuration (42_datapath.md R139). -/
theorem sendReply_rejected {u : Sio} (hen : u.en.sioe = true) (hw : WouldRegister u) (hb : BaudInvalid u) (v : Byte) :
    sendReply u v = .error (.configError (.baudRate true u.brcr.s u.bradd.k)) := by
  rw [sendReply, if_neg (by simp [hen]),
    if_pos ⟨(registers_eq_true_iff u).mpr hw, (baudValid_eq_false_iff u).mpr hb⟩, baudRejection_of_invalid hb]

/-- SEND that registers the SIO (42_datapath.md R139). -/
theorem sendReply_registers {u : Sio} (hen : u.en.sioe = true) (hw : WouldRegister u) (hb : ¬ BaudInvalid u)
    (v : Byte) : sendReply u v = .ok ⟨sentSio u v, .accepted, [.sched]⟩ := by
  have hr := (registers_eq_true_iff u).mpr hw
  have hv := (baudValid_eq_true_iff u).mpr hb
  rw [sendReply, if_neg (by simp [hen]), if_neg (by simp [hv]), if_pos hr, sentSio_of_wouldRegister hw]

/-- SEND that registers nothing (42_datapath.md R137 to R139). -/
theorem sendReply_accepts {u : Sio} (hen : u.en.sioe = true) (hw : ¬ WouldRegister u) (v : Byte) :
    sendReply u v = .ok ⟨sentSio u v, .accepted, []⟩ := by
  have hr := (registers_eq_false_iff u).mpr hw
  rw [sendReply, if_neg (by simp [hen]), if_neg (by simp [hr]), if_neg (by simp [hr]),
    sentSio_of_not_wouldRegister hw]

/-- Settles O27: the four cases of SEND. -/
theorem sendEffect : Obligations.SendEffect := by
  refine ⟨tagSelectsByte_send, fun v s => ⟨fun hen => ?_, fun hen hw hb => ?_, fun hen hw hb => ?_, fun hen hw => ?_⟩⟩
  · rw [exec_send, sendReply_disabled hen]; rfl
  · rw [exec_send, sendReply_rejected hen hw hb]; rfl
  · rw [exec_send, sendReply_registers hen hw hb]; rfl
  · rw [exec_send, sendReply_accepts hen hw]; rfl

/-- WR.BUF while enabled is SEND, its verdict replaced by the bus's `ok` (41_register_access.md R103). -/
theorem writeBuf_enabled {u : Sio} (hen : u.en.sioe = true) (v : Byte) :
    writeBuf u v = (sendReply u v).map fun r => { r with result := .ok } := if_pos hen

/-- WR.BUF while disabled is a preload of the slot (41_register_access.md R103). -/
theorem writeBuf_disabled {u : Sio} (hen : u.en.sioe = false) (v : Byte) :
    writeBuf u v = .ok ⟨u.withTxSlot v, .ok, []⟩ := if_neg (by simp [hen])

/-- Settles O24: the preload, and the three cases of SEND while enabled. -/
theorem writeBufSendsOrPreloads : Obligations.WriteBufSendsOrPreloads := by
  refine ⟨tagSelectsByte_writeInstr .buf, fun v s =>
    ⟨fun hen => ?_, fun hen hw hb => ?_, fun hen hw hb => ?_, fun hen hw => ?_⟩⟩
  · rw [exec_wrBuf, writeBuf_disabled hen]; rfl
  · rw [exec_wrBuf, writeBuf_enabled hen, sendReply_rejected hen hw hb]; rfl
  · rw [exec_wrBuf, writeBuf_enabled hen, sendReply_registers hen hw hb]; rfl
  · rw [exec_wrBuf, writeBuf_enabled hen, sendReply_accepts hen hw]; rfl

/-! ### RECEIVE -/

/-- Settles O28: with a gate shut nothing is permitted, and RECEIVE drops. -/
theorem receiveDropsUnlessPermitted : Obligations.ReceiveDropsUnlessPermitted := by
  refine ⟨tagSelectsByte_receive, fun v s hgate => ?_⟩
  have hnot : receivePermitted s.sio = false := by
    obtain h | h | h | h := hgate <;> simp [receivePermitted, h]
  rw [exec_receive, receiveReply, if_pos hnot]; rfl

/-- A permitted RECEIVE on the single-slot path. -/
theorem exec_receive_slot {s : State} (hp : receivePermitted s.sio = true) (hc : s.sio.fcnf.cnfg = false) (v : Byte) :
    exec (.receive v) s = .next (s.commit (.ok (receiveSlot s.params s.sio v))) := by
  rw [exec_receive, receiveReply, if_neg (by simp [hp]), if_neg (by simp [hc])]

/-- A permitted RECEIVE on the FIFO path. -/
theorem exec_receive_fifo {s : State} (hp : receivePermitted s.sio = true) (hc : s.sio.fcnf.cnfg = true) (v : Byte) :
    exec (.receive v) s = .next (s.commit (.ok (receiveFifo s.params s.sio v))) := by
  rw [exec_receive, receiveReply, if_neg (by simp [hp]), if_pos hc]

/-- Settles O29: overrun, and the symbol stored. -/
theorem receiveIntoSlot : Obligations.ReceiveIntoSlot := by
  refine fun v s hp hc => ⟨fun hfull => ?_, fun hempty => ?_⟩
  · rw [exec_receive_slot hp hc, receiveSlot, if_pos hfull]; rfl
  · rw [exec_receive_slot hp hc, receiveSlot, if_neg (by simp [hempty])]; rfl

/-- Auto-disable on a threshold hit, as one assignment of `RXE` (42_datapath.md R145). -/
theorem autoDisableRx_eq (u : Sio) :
    autoDisableRx u = u.withMod0 { u.mod0 with rxe := u.mod0.rxe && !u.fcnf.rxtxcnt } := by
  unfold autoDisableRx
  cases u.fcnf.rxtxcnt
  · simp only [Bool.not_false, Bool.and_true]; rfl
  · simp only [Bool.not_true, Bool.and_false]; rfl

/-- Settles O30: overrun at the usable capacity, and the append with and without a hit. -/
theorem receiveIntoFifo : Obligations.ReceiveIntoFifo := by
  rintro v s cap n hp hc rfl rfl
  refine ⟨fun hover => ?_, fun hroom hhit => ?_, fun hroom hhit => ?_⟩
  · have hfull : usableCapacity s.params s.sio ≤ s.sio.rxq.length := Nat.le_of_lt_succ hover
    rw [exec_receive_fifo hp hc, receiveFifo, if_pos hfull]; rfl
  · have hfree : ¬ usableCapacity s.params s.sio ≤ s.sio.rxq.length := Nat.not_le_of_lt hroom
    rw [exec_receive_fifo hp hc, receiveFifo, if_neg hfree, if_neg (by simp [hhit])]; rfl
  · have hfree : ¬ usableCapacity s.params s.sio ≤ s.sio.rxq.length := Nat.not_le_of_lt hroom
    rw [exec_receive_fifo hp hc, receiveFifo, if_neg hfree, if_pos hhit, autoDisableRx_eq]; rfl

/-- Settles O31: the two comparisons, by the bit that selects them. -/
theorem thresholdComparisons : Obligations.ThresholdComparisons := by
  refine fun p u n => ⟨fun h => ?_, fun h => ?_, fun h => ?_, fun h => ?_⟩
  · rw [rxHit, if_neg (by simp [h]), decide_eq_true_eq]; rfl
  · rw [rxHit, if_pos h, decide_eq_true_eq]; rfl
  · rw [txHit, if_neg (by simp [h]), decide_eq_true_eq]; rfl
  · rw [txHit, if_pos h, decide_eq_true_eq]; rfl

/-- Reception on the FIFO path with `RFIE` = 1, in exact mode without auto-disable, with threshold 2 and room for 3. -/
structure ExactTwo (s : State) : Prop where
  permitted : receivePermitted s.sio = true
  fcnf : s.sio.fcnf = ⟨false, true, false, true⟩
  exact : s.sio.rfc.rfis = false
  threshold : rxThreshold s.params s.sio = 2
  capacity : 3 ≤ s.params.rxqCap

/-- In such a state the symbol is appended, the interrupt is raised when it is the second, and the state left is such a
state again: the append keeps all that permission, threshold and capacity depend on. -/
theorem ExactTwo.exec_receive {s : State} (h : ExactTwo s) (hroom : s.sio.rxq.length < 3) (v : Byte) :
    ∃ t, exec (.receive v) s = .next t ∧
      t.out = .done .accepted (if s.sio.rxq.length = 1 then [.irq s.params.rxIrq] else []) ∧
      t.sio.rxq = s.sio.rxq ++ [v] ∧ t.params = s.params ∧ ExactTwo t := by
  obtain ⟨hp, hf, hexact, hthr, hcap⟩ := h
  have hhit : rxHit s.params s.sio (s.sio.rxq.length + 1) = decide (s.sio.rxq.length = 1) := by
    rw [rxHit, if_neg (by simp [hexact]), hthr]; simp
  have hkeep : (s.sio.mod0.rxe && !s.sio.fcnf.rxtxcnt) = s.sio.mod0.rxe := by simp [hf]
  obtain ⟨_, hno, hyes⟩ := receiveIntoFifo v s s.params.rxqCap _ hp (by rw [hf]) (by simp [hf]) rfl
  have hfree : s.sio.rxq.length + 1 ≤ s.params.rxqCap := by omega
  by_cases hone : s.sio.rxq.length = 1
  · have hexec := hyes hfree (hhit.trans (decide_eq_true hone))
    rw [hkeep] at hexec
    exact ⟨_, hexec, by simp [hone, hf], rfl, rfl, hp, hf, hexact, hthr, hcap⟩
  · have hexec := hno hfree (hhit.trans (decide_eq_false hone))
    exact ⟨_, hexec, by simp [hone], rfl, rfl, hp, hf, hexact, hthr, hcap⟩

/-- Settles O32: the queue grows 0, 1, 2, 3, so the threshold is met by the second symbol only. -/
theorem exactThresholdInterruptsOnce : Obligations.ExactThresholdInterruptsOnce := by
  intro a b c s hp hf hexact hthr hcap hq
  have h : ExactTwo s := ⟨hp, hf, hexact, hthr, hcap⟩
  obtain ⟨t₁, hexec₁, hout₁, hq₁, hp₁, h₁⟩ := h.exec_receive (by simp [hq]) a
  obtain ⟨t₂, hexec₂, hout₂, hq₂, _, h₂⟩ := h₁.exec_receive (by simp [hq₁, hq]) b
  obtain ⟨t₃, hexec₃, hout₃, hq₃, _, _⟩ := h₂.exec_receive (by simp [hq₂, hq₁, hq]) c
  refine ⟨t₁, t₂, t₃, hexec₁, hexec₂, hexec₃, ?_, ?_, ?_, ?_⟩
  · simpa [hq] using hout₁
  · simpa [hq₁, hq, hp₁] using hout₂
  · simpa [hq₂, hq₁, hq] using hout₃
  · simp [hq₃, hq₂, hq₁, hq]

/-! ### TICK -/

/-- A tick of a registered SIO (42_datapath.md R147). -/
theorem exec_tick_scheduled {s : State} (h : s.sio.scheduled = true) :
    exec .tick s = .next (s.commit (.ok (tickFinish (takeTx s.params s.sio)))) := by
  rw [exec_tick, tickReply, if_pos h]

/-- Settles O33: every transaction of the tag is a tick, and a tick replies only while registered. -/
theorem tickUnregisteredRejected : Obligations.TickUnregisteredRejected := by
  refine ⟨tagSelects_tick, fun s h => ?_⟩
  rw [exec_tick, tickReply, if_neg (by simp [h])]; rfl

/-- The underrun flag, as one assignment of `PERR` (42_datapath.md R149). -/
theorem flagUnderrun_eq (u : Sio) : flagUnderrun u = u.withCr { u.cr with perr := u.cr.perr || !u.cr.ioc } := by
  unfold flagUnderrun
  cases u.cr.ioc
  · simp only [Bool.not_false, Bool.or_true]; rfl
  · simp only [Bool.not_true, Bool.or_false]; rfl

/-- The FIFO underrun, its flag by the parameter (42_datapath.md R150). -/
theorem fifoUnderrun_eq (p : Params) (u : Sio) : fifoUnderrun p u =
    ⟨u.withCr { u.cr with perr := u.cr.perr || (p.fifoUnderrunSetsFlag && !u.cr.ioc) }, none, false,
      [.log .txFifoUnderrun]⟩ := by
  unfold fifoUnderrun
  cases p.fifoUnderrunSetsFlag
  · simp only [Bool.false_and, Bool.or_false]; rfl
  · simp only [Bool.true_and, if_true, flagUnderrun_eq]

theorem takeTx_slot {u : Sio} (hc : u.fcnf.cnfg = false) (p : Params) : takeTx p u = takeSlot u :=
  if_neg (by simp [hc])

theorem takeTx_fifo {u : Sio} (hc : u.fcnf.cnfg = true) (p : Params) : takeTx p u = takeFifo p u := if_pos hc

/-- A take that delivers a symbol without auto-disable goes on (42_datapath.md R147). -/
theorem tickFinish_goOn (u : Sio) (v : Byte) (es : List Event) :
    tickFinish ⟨u, some v, false, es⟩ = ⟨u, .goOn, es ++ [.txOut v]⟩ := rfl

/-- A take that delivers a symbol and runs the auto-disable is done (42_datapath.md R147, R151). -/
theorem tickFinish_disabled (u : Sio) (v : Byte) (es : List Event) :
    tickFinish ⟨u, some v, true, es⟩ = ⟨u.withScheduled false, .finished, es ++ [.txOut v]⟩ := rfl

/-- A take without data is done (42_datapath.md R147). -/
theorem tickFinish_noData (u : Sio) (b : Bool) (es : List Event) :
    tickFinish ⟨u, none, b, es⟩ = ⟨u.withScheduled false, .finished, es⟩ := rfl

/-- Settles O34: the slot's value taken, and the underrun. -/
theorem tickSingleSlot : Obligations.TickSingleSlot := by
  refine fun s hs hc => ⟨fun hfull => ?_, fun hempty => ?_⟩
  · rw [exec_tick_scheduled hs, takeTx_slot hc, takeSlot, if_neg (by simp [hfull]), tickFinish_goOn]; rfl
  · rw [exec_tick_scheduled hs, takeTx_slot hc, takeSlot, if_pos hempty, tickFinish_noData, flagUnderrun_eq]; rfl

/-- Settles O35: the underrun, and the head popped without a hit, with one, and with auto-disable. -/
theorem tickFifo : Obligations.TickFifo := by
  refine fun s hs hc => ⟨fun hq => ?_, fun v q hq => ?_⟩
  · rw [exec_tick_scheduled hs, takeTx_fifo hc, takeFifo, hq]
    simp only [fifoUnderrun_eq, tickFinish_noData]; rfl
  · have hpop : exec .tick s = .next (s.commit (.ok (tickFinish (popTxq s.params s.sio v q)))) := by
      rw [exec_tick_scheduled hs, takeTx_fifo hc, takeFifo, hq]
    refine ⟨fun hhit => ?_, fun hhit hkeep => ?_, fun hhit hdisable => ?_⟩
    · rw [hpop, popTxq, if_neg (by simp [hhit]), tickFinish_goOn]; rfl
    · rw [hpop, popTxq, if_pos hhit, if_neg (by simp [hkeep]), hkeep, tickFinish_goOn]; rfl
    · rw [hpop, popTxq, if_pos hhit, if_pos hdisable, hdisable, tickFinish_disabled]; rfl

/-- An accepted SEND on the single-slot path with `TXE` = 1: the slot holds the value and the SIO is registered. -/
theorem exec_send_slot {s : State} (hen : s.sio.en.sioe = true) (htxe : s.sio.mod1.txe = true)
    (hc : s.sio.fcnf.cnfg = false) (hb : ¬ BaudInvalid s.sio) (v : Byte) :
    ∃ t, exec (.send v) s = .next t ∧
      t.sio = ((s.sio.withTxSlot v).withMod2 { s.sio.mod2 with tbe := false }).withScheduled true := by
  have hsent : sentSio s.sio v =
      ((s.sio.withTxSlot v).withMod2 { s.sio.mod2 with tbe := false }).withScheduled true := by
    simp [sentSio, hc, htxe]
  obtain ⟨_, _, hregisters, haccepts⟩ := sendEffect.2 v s
  by_cases hw : WouldRegister s.sio
  · exact ⟨_, hregisters hen hw hb, hsent⟩
  · exact ⟨_, haccepts hen hw, hsent⟩

/-- Settles O36: the SEND fills the slot and leaves the unit registered, the first tick empties the slot, the second
finds it empty. -/
theorem trailingUnderrunTick : Obligations.TrailingUnderrunTick := by
  intro v s hen htxe hc hioc hb
  obtain ⟨t, hsend, hsio⟩ := exec_send_slot hen htxe hc hb v
  have htake := (tickSingleSlot t (by rw [hsio]; rfl) (by rw [hsio]; exact hc)).1 (by rw [hsio]; rfl)
  rw [hsio] at htake
  refine ⟨t, _, _, hsend, htake, (tickSingleSlot _ (by exact rfl) (by exact hc)).2 (by exact rfl), rfl, rfl, ?_, rfl⟩
  simp [hioc]

/-- A tick on the FIFO path without auto-disable pops the head, emits it on the line and leaves the unit registered,
whether the threshold is hit or not (42_datapath.md R151, R152). -/
theorem exec_tick_pops {s : State} {v : Byte} {q : List Byte} (hs : s.sio.scheduled = true)
    (hc : s.sio.fcnf.cnfg = true) (hkeep : s.sio.fcnf.rxtxcnt = false) (hq : s.sio.txq = v :: q) :
    ∃ t, exec .tick s = .next t ∧ t.sio = s.sio.withTxq q ∧ t.pending = s.pending ∧
      (t.out = .done .goOn [.txOut v] ∨ t.out = .done .goOn [.irq s.params.txIrq, .txOut v]) := by
  obtain ⟨hno, hhit, _⟩ := (tickFifo s hs hc).2 v q hq
  cases h : txHit s.params s.sio q.length with
  | false => exact ⟨_, hno h, rfl, rfl, .inl rfl⟩
  | true => exact ⟨_, hhit h hkeep, rfl, rfl, .inr rfl⟩

/-- A step that emits one symbol puts it at the head of the line's output; the interrupt before it is not on the line. -/
theorem lineOutput_succ {s t : State} {v : Byte} {n : Nat} (hstep : step s = .next t)
    (hout : t.out = .done .goOn [.txOut v] ∨ t.out = .done .goOn [.irq n, .txOut v]) (k : Nat) :
    lineOutput (k + 1) s = v :: lineOutput k t := by
  rw [lineOutput, hstep]
  obtain h | h := hout <;> simp only [h] <;> rfl

/-- Settles O37, by induction on the queue: each tick emits the head and leaves a state of the same kind. -/
theorem ticksDrainQueueInOrder : Obligations.TicksDrainQueueInOrder := by
  intro s rest hs hc hkeep hp
  induction hq : s.sio.txq generalizing s with
  | nil =>
    rw [hq] at hp
    exact ⟨rfl, s, rfl, by rw [← hq]; rfl, hp⟩
  | cons v q ih =>
    rw [hq] at hp
    obtain ⟨t, htick, hsio, hpend, hout⟩ :=
      exec_tick_pops (s := s.withPending (List.replicate q.length (encode .tick) ++ rest)) hs hc hkeep hq
    have hstep : step s = .next t := (step_of_decode_ok hp (decodeEncode .tick rfl)).trans htick
    have htq : t.sio.txq = q := by rw [hsio]; rfl
    obtain ⟨hline, t', hsteps, hsio', hrest⟩ := ih t (by rw [hsio]; exact hs) (by rw [hsio]; exact hc)
      (by rw [hsio]; exact hkeep) (by rw [hpend, htq]; rfl) htq
    refine ⟨?_, t', ⟨t, hstep, hsteps⟩, ?_, hrest⟩
    · rw [List.length_cons, lineOutput_succ hstep hout, hline]
    · rw [hsio', hsio]; rfl

/-! ### FREQ -/

/-- The gap of a symbol is 0, or a power of two (43_timing.md R158). -/
theorem gap_eq (u : Sio) : gap u = if u.mod1.sint = 0#3 then 0 else 2 ^ (u.mod1.sint.toNat - 1) := by
  unfold gap
  generalize u.mod1.sint = sint
  revert sint; decide

/-- The baud configuration is invalid, told by the divisor `N` (43_timing.md R155, R156). -/
theorem baudInvalid_iff_divisor (u : Sio) :
    BaudInvalid u ↔ u.brcr.adde = true ∧ (u.bradd.k = 0#4 ∨ divisor u = 1 ∨ divisor u = 16) := by
  unfold BaudInvalid divisor
  generalize u.brcr.adde = adde, u.brcr.s = n, u.bradd.k = k
  revert adde n k; decide

/-- FREQ with an invalid baud configuration is rejected (43_timing.md R156). -/
theorem exec_freq_rejected {s : State} (h : BaudInvalid s.sio) : exec .freq s =
    .next (s.withOut (.rejected (.configError (.baudRate true s.sio.brcr.s s.sio.bradd.k)))) := by
  rw [exec_freq, freqReply, if_neg (by simp [(baudValid_eq_false_iff _).mpr h]), baudRejection_of_invalid h]; rfl

/-- FREQ with a valid baud configuration answers the two frequencies (43_timing.md R153). -/
theorem exec_freq_valid {s : State} (h : ¬ BaudInvalid s.sio) : exec .freq s =
    .next (s.withOut (.done (.freq (baudRate s.params s.sio) (symFreq s.params s.sio)) [])) := by
  rw [exec_freq, freqReply, if_pos ((baudValid_eq_true_iff _).mpr h), commit_ok_self]

/-- Settles O38: the statement's divider, divisor and gap are the generator's. -/
theorem freqResult : Obligations.FreqResult := by
  refine ⟨tagSelects_freq, ?_⟩
  rintro s n den baud g hn hden rfl hg
  have hdiv : n = divisor s.sio := hn
  subst hdiv
  have hden16 : den = den16 s.sio := hden
  rw [← baudInvalid_iff_divisor, hden16, hg, ← gap_eq]
  exact ⟨exec_freq_rejected, exec_freq_valid⟩

/-- Settles O39: the divider of each example, and 24,000,000 over it. -/
theorem sourceBaudExamples : Obligations.SourceBaudExamples := by
  intro s htap hsint
  have hgap : gap s.sio = 0 := by rw [gap_eq, if_pos hsint]
  have answer (d baud sym : Nat) (hvalid : ¬ BaudInvalid s.sio) (hden : den16 s.sio = d)
      (hbaud : 16 * 24000000 / d = baud) (hsym : baud / 8 = sym) :
      exec .freq s = .next (s.withOut (.done (.freq baud sym) [])) := by
    have hrate : baudRate s.params s.sio = baud := by rw [baudRate, inputClock, htap, hden, hbaud]
    rw [exec_freq_valid hvalid, symFreq, hrate, hgap, ← hsym]; rfl
  refine ⟨fun hs hadde => ?_, fun hs hadde hk => ?_, fun hs hadde => ?_⟩
  · exact answer 64 _ _ (by simp [BaudInvalid, hadde]) (by simp [den16, divisor, hadde, hs]) (by norm_num) (by norm_num)
  · exact answer 72 _ _ (by simp [BaudInvalid, hs, hk]) (by simp [den16, divisor, hadde, hs, hk]) (by norm_num)
      (by norm_num)
  · exact ⟨_, exec_freq_rejected ⟨hadde, .inr (.inl hs)⟩⟩

end Sys2Proof.Machine
end

section
/-! Settles O40 to O42 and O44 to O47: what a pattern claims and how many words, the closed form of the ROM that
DEC.BUILD computes, and the decoder port over it. -/

namespace Sys2Proof.Machine

/-! ### The words a pattern claims -/

/-- The words claimed, as one equation on the word: its bits are the encoding's, and free where neither encoding nor mask
has a 1. -/
theorem mem_claimedSlots_iff_eq (d : Descriptor) (w : Word) :
    w.toNat ∈ claimedSlots d ↔ w = d.encoding ||| (w &&& ~~~d.mask) :=
  (mem_claimedSlots_iff_exists d w).trans (exists_free_bits_iff _ _ _)

/-- The two equations of `claims` are the one above, split by the mask (30_encoding.md R61). -/
theorem claims_iff_eq (d : Descriptor) (w : Word) :
    claims d w = true ↔ w = d.encoding ||| (w &&& ~~~d.mask) := by
  simp only [claims, Bool.and_eq_true, beq_iff_eq, BitVec.eq_of_getLsbD_eq_iff, BitVec.getLsbD_or, BitVec.getLsbD_and,
    BitVec.getLsbD_not, ← forall_and]
  refine forall_congr' fun i => ?_
  refine imp_congr_right fun hi => ?_
  simp only [hi, decide_true, Bool.true_and]
  cases w.getLsbD i <;> cases d.encoding.getLsbD i <;> cases d.mask.getLsbD i <;> simp

/-- A word is a claimed slot exactly when the pattern claims it. -/
theorem mem_claimedSlots_iff_claims (d : Descriptor) (w : Word) : w.toNat ∈ claimedSlots d ↔ claims d w = true :=
  (mem_claimedSlots_iff_eq d w).trans (claims_iff_eq d w).symm

/-- A well-formed pattern has every 1 of its encoding under its mask. -/
theorem mask_of_wf {d : Descriptor} (h : d.wf = true) (i : Nat) (he : d.encoding.getLsbD i = true) :
    d.mask.getLsbD i = true := by
  have hz : d.encoding &&& ~~~d.mask = 0#16 := by simpa [Descriptor.wf] using h
  have hi : i < 16 := BitVec.lt_of_getLsbD he
  have hbit := congrArg (·.getLsbD i) hz
  simpa [he, hi] using hbit

/-- A well-formed pattern claims the words that agree with its encoding under its mask (30_encoding.md R61). -/
theorem mem_claimedSlots_iff_of_wf {d : Descriptor} (h : d.wf = true) (w : Word) :
    w.toNat ∈ claimedSlots d ↔ w &&& d.mask = d.encoding := by
  rw [mem_claimedSlots_iff_eq]
  simp only [BitVec.eq_of_getLsbD_eq_iff, BitVec.getLsbD_or, BitVec.getLsbD_and, BitVec.getLsbD_not]
  refine forall_congr' fun i => imp_congr_right fun hi => ?_
  have hmask := mask_of_wf h i
  simp only [hi, decide_true, Bool.true_and]
  revert hmask
  cases w.getLsbD i <;> cases d.encoding.getLsbD i <;> cases d.mask.getLsbD i <;> simp

/-- The words `slotWords` lists are all different: the two halves of a free bit differ in it. -/
theorem slotWords_nodup (n e m acc : Nat) : (slotWords n e m acc).Nodup := by
  induction n generalizing acc with
  | zero => exact List.nodup_singleton acc
  | succ n ih =>
    unfold slotWords
    split
    · exact ih _
    · split
      · exact ih _
      · refine List.nodup_append.mpr ⟨ih _, ih _, fun a ha b hb hab => ?_⟩
        have hlow := (mem_slotWords.mp ha).1
        have hhigh := (mem_slotWords.mp hb).1
        rw [hab, hhigh] at hlow
        omega

/-- Whether bit `i` is free: 1 in neither the encoding nor the mask. -/
def freeBit (e m i : Nat) : Bool := !m.testBit i && !e.testBit i

/-- `slotWords` lists one word for each choice of the free bits. -/
theorem slotWords_length (n e m acc : Nat) :
    (slotWords n e m acc).length = 2 ^ (List.range n).countP (freeBit e m) := by
  induction n generalizing acc with
  | zero => rfl
  | succ n ih =>
    rw [List.range_succ, List.countP_append, List.countP_singleton, slotWords]
    cases he : e.testBit n <;> cases hm : m.testBit n <;> simp [ih, freeBit, he, hm, pow_succ]
    omega

/-- Settles O44: the three readings of the claimed slots, and one slot for each choice of the free bits, which are
those outside the mask when the pattern is well formed. -/
theorem claimedWords : Obligations.ClaimedWords := by
  intro d
  have hlength : (claimedSlots d).length =
      2 ^ ((List.range 16).countP fun i => !d.mask.getLsbD i && !d.encoding.getLsbD i) :=
    slotWords_length 16 _ _ 0
  refine ⟨mem_claimedSlots_iff_exists d, mem_claimedSlots_iff_claims d, mem_claimedSlots_iff_of_wf,
    slotWords_nodup 16 _ _ 0, hlength, fun h => ?_⟩
  rw [hlength]
  congr 2
  funext i
  have hmask := mask_of_wf h i
  revert hmask
  cases d.encoding.getLsbD i <;> cases d.mask.getLsbD i <;> simp

/-! ### The last descriptor that claims a word -/

/-- After a sequence is applied a slot reads the last descriptor of it that claims the word, and what it read before
where none does (40_decoder.md R92). -/
theorem romRead_foldl_romApply {t : Rom} (h : romWf t = true) (es : List Entry) (w : Word) :
    romRead (es.foldl romApply t) w.toNat = (lastClaiming w es).getD (romRead t w.toNat) := by
  induction es generalizing t with
  | nil => rfl
  | cons e es ih =>
    rw [List.foldl_cons, ih (romApply_wf h e), lastClaiming]
    cases lastClaiming w es with
    | some k => rfl
    | none => simp only [Option.getD_none, romRead_romApply h, mem_claimedSlots_iff_claims]; split <;> rfl

/-- The last descriptor of a sequence that claims a word is one of the sequence, and claims it. -/
theorem exists_mem_of_lastClaiming {w : Word} {es : List Entry} {k : Nat} (h : lastClaiming w es = some k) :
    ∃ e ∈ es, e.1 = k ∧ claims e.2 w = true := by
  induction es with
  | nil => cases h
  | cons e es ih =>
    rw [lastClaiming] at h
    cases hl : lastClaiming w es with
    | some j =>
      simp only [hl] at h
      obtain ⟨f, hf, hk, hc⟩ := ih (hl.trans h)
      exact ⟨f, List.mem_cons_of_mem e hf, hk, hc⟩
    | none =>
      simp only [hl] at h
      split at h
      · next hc => exact ⟨e, List.mem_cons_self, Option.some.inj h, hc⟩
      · cases h

/-- The last of two sequences that claims a word decides. -/
theorem lastClaiming_append (w : Word) (es fs : List Entry) :
    lastClaiming w (es ++ fs) = (lastClaiming w fs).or (lastClaiming w es) := by
  induction es with
  | nil => simp [lastClaiming]
  | cons e es ih =>
    rw [List.cons_append, lastClaiming, ih, lastClaiming]
    cases lastClaiming w fs <;> simp

theorem lastClaiming_eq_none_iff {w : Word} {es : List Entry} :
    lastClaiming w es = none ↔ ∀ e ∈ es, claims e.2 w = false := by
  induction es with
  | nil => simp [lastClaiming]
  | cons e es ih =>
    rw [lastClaiming, List.forall_mem_cons, ← ih]
    cases lastClaiming w es <;> cases claims e.2 w <;> simp

/-- In a sequence of rising references, the last descriptor that claims a word is the one that claims it while no
descriptor of a greater reference does. -/
theorem lastClaiming_eq_some {w : Word} {es : List Entry} (hsorted : (es.map (·.1)).Pairwise (· < ·)) {k : Nat}
    {d : Descriptor} (hmem : (k, d) ∈ es) (hc : claims d w = true)
    (hlast : ∀ e ∈ es, k < e.1 → claims e.2 w = false) : lastClaiming w es = some k := by
  induction es with
  | nil => cases hmem
  | cons e es ih =>
    obtain ⟨hfirst, hsorted⟩ := List.pairwise_cons.mp hsorted
    rw [lastClaiming]
    obtain rfl | hmem := List.mem_cons.mp hmem
    · have hnone : lastClaiming w es = none := lastClaiming_eq_none_iff.mpr fun f hf =>
        hlast f (List.mem_cons_of_mem _ hf) (hfirst f.1 (List.mem_map_of_mem hf))
      simp [hnone, hc]
    · simp only [ih hsorted hmem fun f hf => hlast f (List.mem_cons_of_mem _ hf)]

/-! ### The sequence of a build and its references -/

/-- The catch-all claims every word (40_decoder.md R86). -/
theorem claims_unknownDesc (w : Word) : claims unknownDesc w = true := by
  simp [claims, unknownDesc]

/-- A build's table reads the last descriptor of its sequence that claims the word (40_decoder.md R92). -/
theorem lastClaiming_buildSeq (L : Layers) (c w : Word) :
    lastClaiming w (buildSeq L c) = some (romRead (romBuild L c) w.toNat) := by
  rw [romBuild, romRead_foldl_romApply rfl, buildSeq, lastClaiming]
  cases lastClaiming w (overlaySeq L c) with
  | some k => rfl
  | none => simp only [claims_unknownDesc, if_true]; rfl

/-- What a sequence holds: UNKNOWN, each descriptor of `BASE`, and each of an enabled layer, with their indices in
`DESC` (10_state.md R14, 40_decoder.md R92). -/
theorem mem_buildSeq {L : Layers} {c : Word} {k : Nat} {d : Descriptor} :
    (k, d) ∈ buildSeq L c ↔
      (k = 0 ∧ (descStore L)[0]? = some d) ∨ (∃ j : Nat, L.base[j]? = some d ∧ k = 1 + j) ∨
      (∃ (i j : Nat) (l : List Descriptor), c.getLsbD i = true ∧ L.alt[i]? = some l ∧ l[j]? = some d ∧
        k = 1 + L.base.length + (L.alt.take i).flatten.length + j) := by
  have hcatchAll : (k, d) = (0, unknownDesc) ↔ k = 0 ∧ (descStore L)[0]? = some d := by
    rw [Prod.mk.injEq, descStore, List.getElem?_cons_zero, Option.some.injEq, eq_comm (a := d)]
  rw [buildSeq, overlaySeq, List.mem_cons, List.mem_append, mem_numberLayer, mem_enabledEntries, hcatchAll]
  simp only [Nat.zero_add]

/-- A reference of a sequence is its descriptor's index in `DESC` (10_state.md R14). -/
theorem descStore_of_mem_buildSeq {L : Layers} {c : Word} {e : Entry} (h : e ∈ buildSeq L c) :
    (descStore L)[e.1]? = some e.2 := by
  obtain ⟨k, d⟩ := e
  obtain ⟨rfl, hd⟩ | ⟨j, hj, rfl⟩ | ⟨i, j, l, _, hl, hj, rfl⟩ := mem_buildSeq.mp h
  · exact hd
  · rw [Nat.add_comm, descStore, List.getElem?_cons_succ,
      List.getElem?_append_left (List.getElem?_eq_some_iff.mp hj).1, hj]
  · obtain ⟨hi, hget⟩ := List.getElem?_eq_some_iff.mp hl
    have hflat : L.alt.flatten = (L.alt.take i).flatten ++ (l ++ (L.alt.drop (i + 1)).flatten) := by
      rw [← List.flatten_cons, ← hget, List.cons_getElem_drop_succ, ← List.flatten_append, List.take_append_drop]
    have hindex : 1 + L.base.length + (L.alt.take i).flatten.length + j =
        L.base.length + ((L.alt.take i).flatten.length + j) + 1 := by omega
    rw [hindex, descStore, List.getElem?_cons_succ, List.getElem?_append_right (by omega), hflat,
      List.getElem?_append_right (by omega), List.getElem?_append_left]
    · simpa using hj
    · have := (List.getElem?_eq_some_iff.mp hj).1
      omega

theorem mem_numberLayer_bounds {n : Nat} {ds : List Descriptor} {e : Entry} (h : e ∈ numberLayer n ds) :
    n ≤ e.1 ∧ e.1 < n + ds.length := by
  obtain ⟨j, hj, hk⟩ := mem_numberLayer.mp (show (e.1, e.2) ∈ numberLayer n ds from h)
  have := (List.getElem?_eq_some_iff.mp hj).1
  omega

theorem le_of_mem_enabledEntries {c : Word} {i n : Nat} {ls : List (List Descriptor)} {e : Entry}
    (h : e ∈ enabledEntries c i (numberAlts n ls)) : n ≤ e.1 := by
  obtain ⟨_, _, _, _, _, _, hk⟩ := mem_enabledEntries.mp (show (e.1, e.2) ∈ enabledEntries c i _ from h)
  omega

theorem numberLayer_refs (n : Nat) (ds : List Descriptor) :
    (numberLayer n ds).map (·.1) = List.range' n ds.length := by
  induction ds generalizing n with
  | nil => rfl
  | cons d ds ih => simp [numberLayer, ih, List.range'_succ]

/-- The references of the enabled layers rise: those of a layer stand below all that follow it. -/
theorem enabledEntries_pairwise (c : Word) (i n : Nat) (ls : List (List Descriptor)) :
    ((enabledEntries c i (numberAlts n ls)).map (·.1)).Pairwise (· < ·) := by
  induction ls generalizing i n with
  | nil => exact List.Pairwise.nil
  | cons l ls ih =>
    simp only [numberAlts, enabledEntries, List.map_append]
    refine List.pairwise_append.mpr ⟨?_, ih _ _, ?_⟩
    · split
      · rw [numberLayer_refs]; exact List.pairwise_lt_range'
      · exact List.Pairwise.nil
    · simp only [List.mem_map, forall_exists_index, and_imp, forall_apply_eq_imp_iff₂]
      intro e he f hf
      have hf := le_of_mem_enabledEntries hf
      split at he
      · exact Nat.lt_of_lt_of_le (mem_numberLayer_bounds he).2 hf
      · cases he

/-- The references of a sequence rise (10_state.md R14). -/
theorem buildSeq_pairwise (L : Layers) (c : Word) : ((buildSeq L c).map (·.1)).Pairwise (· < ·) := by
  simp only [buildSeq, overlaySeq, List.map_cons, List.map_append]
  refine List.pairwise_cons.mpr ⟨?_, List.pairwise_append.mpr ⟨?_, enabledEntries_pairwise _ _ _ _, ?_⟩⟩
  · simp only [List.mem_append, List.mem_map]
    rintro k (⟨e, he, rfl⟩ | ⟨e, he, rfl⟩)
    · exact (mem_numberLayer_bounds he).1
    · have := le_of_mem_enabledEntries he
      omega
  · rw [numberLayer_refs]; exact List.pairwise_lt_range'
  · simp only [List.mem_map, forall_exists_index, and_imp, forall_apply_eq_imp_iff₂]
    exact fun e he f hf => Nat.lt_of_lt_of_le (mem_numberLayer_bounds he).2 (le_of_mem_enabledEntries hf)

/-! ### Lookups -/

theorem descAt_of_descStore {L : Layers} {k : Nat} {d : Descriptor} (h : (descStore L)[k]? = some d) :
    descAt L k = d := by
  rw [descAt, List.getD_eq_getElem?_getD, h, Option.getD_some]

/-- A lookup answers the reference in the word's slot and the record there (40_decoder.md R91). -/
theorem exec_decLookup (w : Word) (s : State) : exec (.decLookup w) s = .next (s.withOut
    (.done (.descriptor (romRead s.rom w.toNat) (descAt s.params.layers (romRead s.rom w.toNat))) [])) := rfl

/-- A lookup of a word whose slot holds the index of `d` in `DESC` answers `d`. -/
theorem exec_decLookup_of_descStore {w : Word} {s : State} {k : Nat} {d : Descriptor}
    (hk : romRead s.rom w.toNat = k) (hd : (descStore s.params.layers)[k]? = some d) :
    exec (.decLookup w) s = .next (s.withOut (.done (.descriptor k d) [])) := by
  rw [exec_decLookup, hk, descAt_of_descStore hd]

/-- Settles O45: the table reads the last claiming entry, and with rising references that is the entry of the lookup's
clause. -/
theorem romHoldsLastClaiming : Obligations.RomHoldsLastClaiming := by
  refine fun L c => ⟨lastClaiming_buildSeq L c, fun _ => descStore_of_mem_buildSeq, fun _ _ => mem_buildSeq,
    buildSeq_pairwise L c, ?_⟩
  rintro k d w s hmem hc hlast rfl hrom
  have hsome := (lastClaiming_buildSeq s.params.layers c w).symm.trans
    (lastClaiming_eq_some (buildSeq_pairwise _ c) hmem hc hlast)
  rw [← hrom] at hsome
  exact exec_decLookup_of_descStore (Option.some.inj hsome) (descStore_of_mem_buildSeq hmem)

/-- The slot of a word in a built table holds the reference of a descriptor of the sequence that claims the word. -/
theorem exists_mem_buildSeq_of_romRead (L : Layers) (c w : Word) :
    ∃ e ∈ buildSeq L c, e.1 = romRead (romBuild L c) w.toNat ∧ claims e.2 w = true :=
  exists_mem_of_lastClaiming (lastClaiming_buildSeq L c w)

/-- A word no descriptor of `BASE` or of an enabled layer claims reads the catch-all's reference (30_encoding.md R69). -/
theorem romRead_romBuild_of_unclaimed {L : Layers} {c w : Word}
    (h : ∀ e ∈ overlaySeq L c, claims e.2 w = false) : romRead (romBuild L c) w.toNat = 0 := by
  rw [romBuild, romRead_foldl_romApply rfl, lastClaiming_eq_none_iff.mpr h]; rfl

/-- Settles O40: the reference is the last claiming descriptor's, and the catch-all's where no other claims the word. -/
theorem lookupAnswersDescriptor : Obligations.LookupAnswersDescriptor := by
  refine ⟨decodeTxn_lookup, fun w s => ⟨⟨_, exec_decLookup w s⟩, fun d => exec_decLookup_of_descStore rfl,
    fun hinv => ?_, fun hinv hunclaimed => ?_⟩⟩
  · obtain ⟨e, he, hk, _⟩ := exists_mem_buildSeq_of_romRead s.params.layers s.cfg w
    rw [hinv.rom, ← hk]
    exact ⟨e.2, descStore_of_mem_buildSeq he⟩
  · have hzero : romRead s.rom w.toNat = 0 := by rw [hinv.rom, romRead_romBuild_of_unclaimed hunclaimed]
    exact ⟨unknownDesc, rfl, rfl, rfl, exec_decLookup_of_descStore hzero rfl⟩

/-- Settles O41: the bare word is answered by the same lookup (log 10). -/
theorem bareWordAnswersDescriptor : Obligations.BareWordAnswersDescriptor := by
  intro w s
  obtain ⟨hanswer, _, _, hunclaimed⟩ := lookupAnswersDescriptor.2 w s
  exact ⟨rfl, hanswer, rfl, hunclaimed⟩

/-! ### Builds -/

/-- A mask selects only layers that exist when it has no bit at `NALT` or above (10_state.md R16). -/
theorem ushiftRight_eq_zero_iff (c : Word) (n : Nat) : c >>> n = 0#16 ↔ ∀ i, n ≤ i → c.getLsbD i = false := by
  constructor
  · intro h i hi
    have hbit := congrArg (·.getLsbD (i - n)) h
    simpa [BitVec.getLsbD_ushiftRight, Nat.add_sub_cancel' hi] using hbit
  · intro h
    refine BitVec.eq_of_getLsbD_eq fun i _ => ?_
    rw [BitVec.getLsbD_ushiftRight, h _ (Nat.le_add_right n i), BitVec.getLsbD_zero]

theorem exec_decBuild (c : Word) (s : State) : exec (.decBuild c) s = .next (s.build c) := rfl

/-- An accepted build replaces table and configuration (40_decoder.md R87). -/
theorem exec_decBuild_accepted {c : Word} {s : State} (h : ∀ i, s.params.layers.nalt ≤ i → c.getLsbD i = false) :
    exec (.decBuild c) s =
      .next (((s.withRom (romBuild s.params.layers c)).withCfg c).withOut (.done .ok [])) := by
  rw [exec_decBuild, State.build, if_pos ((ushiftRight_eq_zero_iff c _).mpr h)]

/-- Settles O42: a mask with a bit at `NALT` or above does not pass the model's shift test, every other does. -/
theorem buildReplacesTable : Obligations.BuildReplacesTable := by
  refine ⟨decodeTxn_build, fun c s => ⟨?_, exec_decBuild_accepted⟩⟩
  rintro ⟨i, hi, hbit⟩
  have hbad : ¬ c >>> s.params.layers.nalt = 0#16 := fun h => by
    have := (ushiftRight_eq_zero_iff c _).mp h i hi
    rw [hbit] at this
    cases this
  rw [exec_decBuild, State.build, if_neg hbad]; rfl

/-- Settles O46: the second build overwrites all the first wrote. -/
theorem buildForgetsEarlierBuilds : Obligations.BuildForgetsEarlierBuilds := fun _ _ _ hc hc' =>
  ⟨_, _, exec_decBuild_accepted hc, exec_decBuild_accepted hc', exec_decBuild_accepted hc'⟩

/-! ### The execution fields under H-ALT -/

/-- Two descriptors that share the execution fields with a third share them with each other, and so the length. -/
theorem sameExecution_of_common {d d' b : Descriptor} (h : sameExecution d b = true) (h' : sameExecution d' b = true) :
    sameExecution d d' = true ∧ instrLength d = instrLength d' := by
  simp only [sameExecution, Bool.and_eq_true, beq_iff_eq, instrLength] at h h' ⊢
  simp only [h, h', and_self]

theorem sameExecution_self (d : Descriptor) : sameExecution d d = true := by simp [sameExecution]

/-- Under H-ALT the descriptor a build answers for a word shares the execution fields with the canonical descriptor that
is the last of `BASE` to claim it: it is that one, or an optional one that covers it (40_decoder.md R96). -/
theorem sameExecution_canonical {L : Layers} (hL : AltAgrees L) {w : Word} (hbase : ∃ d ∈ L.base, claims d w = true) :
    ∃ b : Descriptor, ∀ c : Word, sameExecution (descAt L (romRead (romBuild L c) w.toNat)) b = true := by
  obtain ⟨k, hk⟩ : ∃ k, lastClaiming w (numberLayer 1 L.base) = some k := by
    obtain ⟨d, hd, hc⟩ := hbase
    obtain ⟨j, hj⟩ := List.mem_iff_getElem?.mp hd
    refine Option.ne_none_iff_exists'.mp fun hnone => ?_
    have hnot := lastClaiming_eq_none_iff.mp hnone (1 + j, d) (mem_numberLayer.mpr ⟨j, hj, rfl⟩)
    exact absurd hc (by simp [hnot])
  obtain ⟨⟨k, b⟩, hmem, rfl, hcb⟩ := exists_mem_of_lastClaiming hk
  refine ⟨b, fun c => ?_⟩
  have hread : romRead (romBuild L c) w.toNat =
      (lastClaiming w (enabledEntries c 0 (numberAlts (1 + L.base.length) L.alt))).getD k := by
    rw [romBuild, romRead_foldl_romApply rfl, overlaySeq, lastClaiming_append, hk]
    cases lastClaiming w (enabledEntries c 0 _) <;> rfl
  rw [hread]
  cases hl : lastClaiming w (enabledEntries c 0 (numberAlts (1 + L.base.length) L.alt)) with
  | none =>
    have hseq : (k, b) ∈ buildSeq L c := List.mem_cons_of_mem _ (List.mem_append_left _ hmem)
    rw [Option.getD_none, descAt_of_descStore (descStore_of_mem_buildSeq hseq)]
    exact sameExecution_self b
  | some m =>
    obtain ⟨⟨m, d⟩, hd, rfl, hcd⟩ := exists_mem_of_lastClaiming hl
    have hseq : (m, d) ∈ buildSeq L c := List.mem_cons_of_mem _ (List.mem_append_right _ hd)
    rw [Option.getD_some, descAt_of_descStore (descStore_of_mem_buildSeq hseq)]
    obtain ⟨_, _, l, _, hl, hdl, _⟩ := mem_enabledEntries.mp hd
    obtain ⟨_, hbase, _⟩ := mem_numberLayer.mp hmem
    exact hL l (List.mem_of_getElem? hl) d (List.mem_of_getElem? hdl) b (List.mem_of_getElem? hbase) w hcd hcb

/-- Settles O47: both answers share the execution fields with the canonical descriptor. -/
theorem executionFieldsIgnoreConfiguration : Obligations.ExecutionFieldsIgnoreConfiguration := by
  intro L c c' w hL hbase
  obtain ⟨b, hb⟩ := sameExecution_canonical hL hbase
  exact ⟨_, _, rfl, rfl, sameExecution_of_common (hb c) (hb c')⟩

end Sys2Proof.Machine
end

section
/-! What every operation can do to the SIO, once: `exec_effect` lists the effects with the output that goes with each. The
soundness statements that follow are case analyses over them. -/

namespace Sys2Proof.Machine

/-! ### The effects -/

/-- The effects an operation can have on the SIO `u`, with what the output port then shows. -/
inductive Effect (p : Params) (u : Sio) : Instr → Sio → Output → Prop
  /-- A rejection (60_exceptions.md R165). -/
  | rejected (i : Instr) (e : Rejection) : Effect p u i u (.rejected e)
  /-- An operation that leaves the SIO as it is and emits at most a diagnostic: the plain reads, FREQ, the decoder port,
  RD.BUF without data, a dropped SEND or RECEIVE. -/
  | unchanged {i : Instr} {r : Result} {es : List Event} (hi : i ≠ .tick) (hr : r ≠ .accepted)
      (hes : es = [] ∨ ∃ k, es = [.log k]) : Effect p u i u (.done r es)
  | rdCr (r : Result) (hr : r ≠ .accepted) :
      Effect p u .rdCr (u.withCr ⟨false, false, false, u.cr.ioc⟩) (.done r [])
  | rdRst (r : Result) (hr : r ≠ .accepted) : Effect p u .rdRst (u.withRst ⟨false⟩) (.done r [])
  | rdBufSlot (hcnfg : u.fcnf.cnfg = false) :
      Effect p u .rdBuf (u.withMod2 { u.mod2 with rbf := false }) (.done (.data u.rxSlot) [])
  | rdBufQueue (v : Byte) (q : List Byte) (hcnfg : u.fcnf.cnfg = true) (hq : u.rxq = v :: q) :
      Effect p u .rdBuf (u.withRxq q) (.done (.data v) [])
  | wrEn (v : Byte) (a : En) : Effect p u (.wrEn v) (u.withEn a) (.done .ok [])
  | wrCr (v : Byte) (b : Bool) : Effect p u (.wrCr v) (u.withCr { u.cr with ioc := b }) (.done .ok [])
  | wrMod0 (v : Byte) (a : Mod0) {es : List Event} (hes : es = [] ∨ ∃ k, es = [.log k]) :
      Effect p u (.wrMod0 v) (u.withMod0 a) (.done .ok es)
  | wrMod1 (v : Byte) (a : Mod1) : Effect p u (.wrMod1 v) (u.withMod1 a) (.done .ok [])
  | wrBrcr (v : Byte) (a : Brcr) : Effect p u (.wrBrcr v) (u.withBrcr a) (.done .ok [])
  | wrBradd (v : Byte) (a : Bradd) : Effect p u (.wrBradd v) (u.withBradd a) (.done .ok [])
  | wrFcnf (v : Byte) (a : Fcnf) : Effect p u (.wrFcnf v) (u.withFcnf a) (.done .ok [])
  | wrMod2 (v : Byte) (a : BitVec 2) : Effect p u (.wrMod2 v) (u.withMod2 { u.mod2 with swrst := a }) (.done .ok [])
  | softReset {i : Instr} (hreset : CompletesSoftReset i u) : Effect p u i (softResetSio u) (.done .ok [])
  | wrRfc (v : Byte) (a : Rfc) : Effect p u (.wrRfc v) (u.withRfc a) (.done .ok [])
  | wrRfcClear (v : Byte) (a : Rfc) (hold : u.rfc.rfcs = false) (hnew : v.getLsbD 7 = true) :
      Effect p u (.wrRfc v) ((u.withRfc a).withRxq []) (.done .ok [])
  | wrTfc (v : Byte) (a : Tfc) : Effect p u (.wrTfc v) (u.withTfc a) (.done .ok [])
  | wrTfcClear (v : Byte) (a : Tfc) (hold : u.tfc.tfcs = false) (hnew : v.getLsbD 7 = true) :
      Effect p u (.wrTfc v) ((u.withTfc a).withTxq []) (.done .ok [])
  /-- WR.BUF on a disabled interface. -/
  | preload (v : Byte) : Effect p u (.wrBuf v) (u.withTxSlot v) (.done .ok [])
  /-- An accepted SEND on the single-slot path, also through WR.BUF; `b` says whether it registers the SIO. -/
  | sentSlot {i : Instr} (v : Byte) (hi : i = .send v ∨ i = .wrBuf v) (r : Result) (b : Bool)
      (hb : b = true → u.en.sioe = true ∧ u.mod1.txe = true) (hcnfg : u.fcnf.cnfg = false) :
      Effect p u i (((u.withTxSlot v).withMod2 { u.mod2 with tbe := false }).withScheduled (u.scheduled || b))
        (.done r (if b then [.sched] else []))
  /-- The same on the FIFO path. -/
  | sentQueue {i : Instr} (v : Byte) (hi : i = .send v ∨ i = .wrBuf v) (r : Result) (b : Bool)
      (hb : b = true → u.en.sioe = true ∧ u.mod1.txe = true) (hcnfg : u.fcnf.cnfg = true) :
      Effect p u i ((u.withTxq (u.txq ++ [v])).withScheduled (u.scheduled || b))
        (.done r (if b then [.sched] else []))
  | slotOverrun (v : Byte) (hcnfg : u.fcnf.cnfg = false) :
      Effect p u (.receive v) (u.withCr { u.cr with oerr := true }) (.done .overrun [])
  | slotStored (v : Byte) (hcnfg : u.fcnf.cnfg = false) (hrbf : u.mod2.rbf = false) :
      Effect p u (.receive v) ((u.withRxSlot v).withMod2 { u.mod2 with rbf := true })
        (.done .accepted (if u.fcnf.rfie = true then [.irq p.rxIrq] else []))
  | fifoOverrun (v : Byte) (hcnfg : u.fcnf.cnfg = true) :
      Effect p u (.receive v) ((u.withCr { u.cr with oerr := true }).withRst ⟨true⟩) (.done .overrun [])
  | appended (v : Byte) (hcnfg : u.fcnf.cnfg = true) (hroom : u.rxq.length < usableCapacity p u)
      (hhit : rxHit p u (u.rxq.length + 1) = false) :
      Effect p u (.receive v) (u.withRxq (u.rxq ++ [v])) (.done .accepted [])
  | appendedHit (v : Byte) (a : Mod0) (hcnfg : u.fcnf.cnfg = true) (hroom : u.rxq.length < usableCapacity p u)
      (hhit : rxHit p u (u.rxq.length + 1) = true) :
      Effect p u (.receive v) ((u.withRxq (u.rxq ++ [v])).withMod0 a)
        (.done .accepted (if u.fcnf.rfie = true then [.irq p.rxIrq] else []))
  | slotTaken (hcnfg : u.fcnf.cnfg = false) :
      Effect p u .tick (u.withMod2 { u.mod2 with tbe := true }) (.done .goOn [.txOut u.txSlot])
  /-- A tick that finds nothing to send, on either path; the flag is set on an internally clocked device only. -/
  | underrun (b : Bool) (hb : b = true → u.cr.ioc = false) (k : LogKind) (hq : u.fcnf.cnfg = true → u.txq = []) :
      Effect p u .tick ((u.withCr { u.cr with perr := u.cr.perr || b }).withScheduled false)
        (.done .finished [.log k])
  | popped (v : Byte) (q : List Byte) (hcnfg : u.fcnf.cnfg = true) (hq : u.txq = v :: q)
      (hhit : txHit p u q.length = false) : Effect p u .tick (u.withTxq q) (.done .goOn [.txOut v])
  | poppedHit (v : Byte) (q : List Byte) (hcnfg : u.fcnf.cnfg = true) (hq : u.txq = v :: q)
      (hhit : txHit p u q.length = true) :
      Effect p u .tick (u.withTxq q) (.done .goOn [.irq p.txIrq, .txOut v])
  /-- A threshold hit with auto-disable. -/
  | poppedLast (v : Byte) (q : List Byte) (a : Mod1) (hcnfg : u.fcnf.cnfg = true) (hq : u.txq = v :: q)
      (hhit : txHit p u q.length = true) :
      Effect p u .tick (((u.withTxq q).withMod1 a).withScheduled false)
        (.done .finished [.irq p.txIrq, .txOut v])

/-- The effect of an operation whose next state is known. -/
theorem Effect.of_exec {i : Instr} {s t t' : State} (ht : exec i s = .next t) (ht' : exec i s = .next t')
    (he : Effect s.params s.sio i t'.sio t'.out) : Effect s.params s.sio i t.sio t.out :=
  next_inj (ht'.symm.trans ht) ▸ he

variable {s t : State} {v : Byte}

/-- A SEND accepted, whether it is presented as such or through WR.BUF. -/
theorem sentSio_effect {p : Params} {u : Sio} {i : Instr} (hi : i = .send v ∨ i = .wrBuf v) (hen : u.en.sioe = true)
    (r : Result) {es : List Event} (hes : es = if registers u then [.sched] else []) :
    Effect p u i (sentSio u v) (.done r es) := by
  have hsched : (u.scheduled || u.mod1.txe) = (u.scheduled || registers u) := by
    rw [registers]; cases u.scheduled <;> simp
  have hreg : registers u = true → u.en.sioe = true ∧ u.mod1.txe = true := fun h =>
    ⟨hen, ((registers_eq_true_iff u).mp h).1⟩
  rw [sentSio, hsched, hes]
  cases hc : u.fcnf.cnfg with
  | false => exact .sentSlot v hi r _ hreg hc
  | true => exact .sentQueue v hi r _ hreg hc

/-- The effects of a SEND on an enabled interface, from its three cases: rejected, registering, accepted only. -/
theorem exec_sent_effect {i : Instr} {r : Result} {e : Rejection} (hi : i = .send v ∨ i = .wrBuf v)
    (hen : s.sio.en.sioe = true)
    (hrejected : WouldRegister s.sio → BaudInvalid s.sio → exec i s = .next (s.withOut (.rejected e)))
    (hregisters : WouldRegister s.sio → ¬ BaudInvalid s.sio →
      exec i s = .next ((s.withSio (sentSio s.sio v)).withOut (.done r [.sched])))
    (haccepts : ¬ WouldRegister s.sio → exec i s = .next ((s.withSio (sentSio s.sio v)).withOut (.done r [])))
    (h : exec i s = .next t) : Effect s.params s.sio i t.sio t.out := by
  by_cases hw : WouldRegister s.sio
  · by_cases hb : BaudInvalid s.sio
    · exact .of_exec h (hrejected hw hb) (.rejected _ _)
    · exact .of_exec h (hregisters hw hb)
        (sentSio_effect hi hen _ (by rw [(registers_eq_true_iff _).mpr hw]; rfl))
  · exact .of_exec h (haccepts hw) (sentSio_effect hi hen _ (by rw [(registers_eq_false_iff _).mpr hw]; rfl))

/-- The effects of SEND. -/
theorem exec_send_effect (h : exec (.send v) s = .next t) : Effect s.params s.sio (.send v) t.sio t.out := by
  obtain ⟨hdropped, hrejected, hregisters, haccepts⟩ := sendEffect.2 v s
  cases hen : s.sio.en.sioe with
  | false => exact .of_exec h (hdropped hen) (.unchanged nofun nofun (.inr ⟨_, rfl⟩))
  | true => exact exec_sent_effect (.inl rfl) hen (hrejected hen) (hregisters hen) (haccepts hen) h

/-- The effects of WR.BUF. -/
theorem exec_wrBuf_effect (h : exec (.wrBuf v) s = .next t) : Effect s.params s.sio (.wrBuf v) t.sio t.out := by
  obtain ⟨hpreload, hrejected, hregisters, haccepts⟩ := writeBufSendsOrPreloads.2 v s
  cases hen : s.sio.en.sioe with
  | false => exact .of_exec h (hpreload hen) (.preload v)
  | true => exact exec_sent_effect (.inr rfl) hen (hrejected hen) (hregisters hen) (haccepts hen) h

/-- The effects of RECEIVE. -/
theorem exec_receive_effect (h : exec (.receive v) s = .next t) :
    Effect s.params s.sio (.receive v) t.sio t.out := by
  cases next_inj h
  change Effect s.params s.sio _ (receiveReply s.params s.sio v).sio
    (.done (receiveReply s.params s.sio v).result (receiveReply s.params s.sio v).events)
  obtain ⟨_, hr⟩ | ⟨_, hc, _, hr⟩ | ⟨_, hc, hrbf, hr⟩ | ⟨_, hc, _, hr⟩ | ⟨_, hc, hroom, hhit, hr⟩ |
    ⟨_, hc, hroom, hhit, hr⟩ := receiveReply_cases s.params s.sio v <;> rw [hr]
  · exact .unchanged nofun nofun (.inr ⟨_, rfl⟩)
  · exact .slotOverrun v hc
  · exact .slotStored v hc hrbf
  · exact .fifoOverrun v hc
  · rw [autoDisableRx_eq]; exact .appendedHit v _ hc hroom hhit
  · exact .appended v hc hroom hhit

/-- The effects of TICK. -/
theorem exec_tick_effect (h : exec .tick s = .next t) : Effect s.params s.sio .tick t.sio t.out := by
  cases hs : s.sio.scheduled with
  | false => exact .of_exec h (tickUnregisteredRejected.2 s hs) (.rejected _ _)
  | true =>
    cases hc : s.sio.fcnf.cnfg with
    | false =>
      obtain ⟨htaken, hunder⟩ := tickSingleSlot s hs hc
      cases hm : s.sio.mod2.tbe with
      | false => exact .of_exec h (htaken hm) (.slotTaken hc)
      | true => exact .of_exec h (hunder hm) (.underrun _ (by simp) _ (by simp [hc]))
    | true =>
      obtain ⟨hunder, hpop⟩ := tickFifo s hs hc
      cases hq : s.sio.txq with
      | nil => exact .of_exec h (hunder hq) (.underrun _ (by simp) _ fun _ => hq)
      | cons v q =>
        obtain ⟨hno, hhit, hlast⟩ := hpop v q hq
        cases ht : txHit s.params s.sio q.length with
        | false => exact .of_exec h (hno ht) (.popped v q hc hq ht)
        | true =>
          cases hd : s.sio.fcnf.rxtxcnt with
          | false => exact .of_exec h (hhit ht hd) (.poppedHit v q hc hq ht)
          | true => exact .of_exec h (hlast ht hd) (.poppedLast v q _ hc hq ht)

/-- The effects of RD.BUF. -/
theorem exec_rdBuf_effect (h : exec .rdBuf s = .next t) : Effect s.params s.sio .rdBuf t.sio t.out := by
  cases next_inj h
  change Effect s.params s.sio _ (readBuf s.sio).sio (.done (readBuf s.sio).result (readBuf s.sio).events)
  obtain ⟨hc, _, hr⟩ | ⟨_, _, hr⟩ | ⟨_, _, hr⟩ | ⟨hc, v, q, hq, hr⟩ := readBuf_cases s.sio <;> rw [hr]
  · exact .rdBufSlot hc
  · exact .unchanged nofun nofun (.inl rfl)
  · exact .unchanged nofun nofun (.inl rfl)
  · exact .rdBufQueue v q hc hq

/-- The effects of WR.MOD2. -/
theorem exec_wrMod2_effect (h : exec (.wrMod2 v) s = .next t) : Effect s.params s.sio (.wrMod2 v) t.sio t.out := by
  by_cases hreset : s.sio.mod2.swrst = 2#2 ∧ v.extractLsb' 0 2 = 1#2
  · exact .of_exec h (exec_wrMod2_softReset hreset.1 hreset.2) (.softReset ⟨hreset.1, v, rfl, hreset.2⟩)
  · exact .of_exec h (exec_wrMod2_plain hreset) (.wrMod2 v _)

/-- The effects of WR.RFC. -/
theorem exec_wrRfc_effect (h : exec (.wrRfc v) s = .next t) : Effect s.params s.sio (.wrRfc v) t.sio t.out := by
  have hexec := exec_wrRfc v s
  split at hexec
  · next hclear => exact .of_exec h hexec (.wrRfcClear v _ hclear.1 hclear.2)
  · exact .of_exec h hexec (.wrRfc v _)

/-- The effects of WR.TFC. -/
theorem exec_wrTfc_effect (h : exec (.wrTfc v) s = .next t) : Effect s.params s.sio (.wrTfc v) t.sio t.out := by
  have hexec := exec_wrTfc v s
  split at hexec
  · next hclear => exact .of_exec h hexec (.wrTfcClear v _ hclear.1 hclear.2)
  · exact .of_exec h hexec (.wrTfc v _)

/-- The effects of FREQ. -/
theorem exec_freq_effect (h : exec .freq s = .next t) : Effect s.params s.sio .freq t.sio t.out := by
  by_cases hb : BaudInvalid s.sio
  · exact .of_exec h (exec_freq_rejected hb) (.rejected _ _)
  · exact .of_exec h (exec_freq_valid hb) (.unchanged nofun nofun (.inl rfl))

/-- The effects of DEC.BUILD on the SIO. -/
theorem exec_decBuild_effect {c : Word} (h : exec (.decBuild c) s = .next t) :
    Effect s.params s.sio (.decBuild c) t.sio t.out := by
  cases next_inj h
  obtain ⟨_, hb⟩ | ⟨_, hb⟩ := build_cases s c <;> rw [hb]
  · exact .unchanged nofun nofun (.inl rfl)
  · exact .rejected _ _

/-- Every operation has one of the effects. -/
theorem exec_effect {i : Instr} (h : exec i s = .next t) : Effect s.params s.sio i t.sio t.out := by
  cases i with
  | rdEn | rdMod0 | rdBrcr | rdBradd | rdMod1 | rdMod2 | rdRfc | rdTfc | rdTst | rdFcnf | decLookup w | unknown w =>
    cases next_inj h; exact .unchanged nofun nofun (.inl rfl)
  | rdCr => exact .of_exec h (exec_rdCr s) (.rdCr _ nofun)
  | rdRst => exact .of_exec h (exec_rdRst s) (.rdRst _ nofun)
  | wrEn v => exact .of_exec h (exec_wrEn v s) (.wrEn v _)
  | wrCr v => exact .of_exec h (exec_wrCr v s) (.wrCr v _)
  | wrMod0 v =>
    refine .of_exec h (exec_wrMod0 v s) (.wrMod0 v _ ?_)
    split
    · exact .inl rfl
    · exact .inr ⟨_, rfl⟩
  | wrMod1 v => exact .of_exec h (exec_wrMod1 v s) (.wrMod1 v _)
  | wrBrcr v => exact .of_exec h (exec_wrBrcr v s) (.wrBrcr v _)
  | wrBradd v => exact .of_exec h (exec_wrBradd v s) (.wrBradd v _)
  | wrFcnf v => exact .of_exec h (exec_wrFcnf v s) (.wrFcnf v _)
  | wrRst v => exact .of_exec h (exec_writeInstr_status (.inl rfl) v s) (.rejected _ _)
  | wrTst v => exact .of_exec h (exec_writeInstr_status (.inr rfl) v s) (.rejected _ _)
  | wrMod2 v => exact exec_wrMod2_effect h
  | wrRfc v => exact exec_wrRfc_effect h
  | wrTfc v => exact exec_wrTfc_effect h
  | rdBuf => exact exec_rdBuf_effect h
  | wrBuf v => exact exec_wrBuf_effect h
  | send v => exact exec_send_effect h
  | receive v => exact exec_receive_effect h
  | tick => exact exec_tick_effect h
  | freq => exact exec_freq_effect h
  | decBuild c => exact exec_decBuild_effect h

end Sys2Proof.Machine
end

section
/-! Settles O51 to O57: each statement, clause by clause, is a case analysis over the effects. The named cases are the
operations the clause is about; in every other the field it speaks of is the one before. -/

namespace Sys2Proof.Machine

variable {p : Params} {u u' : Sio} {i : Instr} {o : Output} {r : Result} {es : List Event}

/-! ### Events -/

/-- An effect emits at most one event, but for a pop that hits the threshold (60_exceptions.md R176). -/
theorem Effect.events_length (h : Effect p u i u' (.done r es)) :
    es.length ≤ 1 ∨ (i = .tick ∧ u.fcnf.cnfg = true ∧ ∃ v : Byte, es = [.irq p.txIrq, .txOut v]) := by
  cases h with
  | unchanged _ _ hes | wrMod0 _ _ hes => obtain rfl | ⟨k, rfl⟩ := hes <;> simp
  | sentSlot | sentQueue | slotStored | appendedHit => left; split <;> simp
  | poppedHit v q hcnfg | poppedLast v q _ hcnfg => exact .inr ⟨rfl, hcnfg, v, rfl⟩
  | _ => simp

/-- Settles O51: what the effects emit. -/
theorem eventsPerOperation : Obligations.EventsPerOperation := by
  intro i s t r es hexec hout
  have heff := exec_effect hexec
  rw [hout] at heff
  exact heff.events_length

/-- The interrupt requests of an operation that completes (60_exceptions.md R174). -/
theorem Effect.irq_mem_iff (h : Effect p u i u' (.done r es)) (n : Nat) :
    Event.irq n ∈ es ↔
      (n = p.rxIrq ∧ r = .accepted ∧ u.fcnf.rfie = true ∧ (∃ v : Byte, i = .receive v) ∧
        ((u.fcnf.cnfg = false ∧ u.mod2.rbf = false) ∨
          (u.fcnf.cnfg = true ∧ rxHit p u (u.rxq.length + 1) = true))) ∨
      (n = p.txIrq ∧ i = .tick ∧ u.fcnf.cnfg = true ∧
        ∃ (v : Byte) (q : List Byte), u.txq = v :: q ∧ txHit p u q.length = true) := by
  cases h with
  | unchanged hi hr hes => obtain rfl | ⟨k, rfl⟩ := hes <;> simp [hi, hr]
  | wrMod0 v a hes => obtain rfl | ⟨k, rfl⟩ := hes <;> simp
  | softReset hr => obtain ⟨_, w, rfl, _⟩ := hr; simp
  | sentSlot v hi | sentQueue v hi => obtain rfl | rfl := hi <;> split <;> simp
  | slotStored v hcnfg hrbf => split <;> simp [*]
  | appended v hcnfg hroom hhit => simp [hcnfg, hhit]
  | appendedHit v a hcnfg hroom hhit => split <;> simp [*]
  | slotTaken hcnfg => simp [hcnfg]
  | underrun b hb k hq => simp +contextual [hq]
  | popped v q hcnfg hq hhit => simp [hcnfg, hq, hhit]
  | poppedHit v q hcnfg hq hhit | poppedLast v q a hcnfg hq hhit => simp [hcnfg, hq, hhit]
  | _ => simp

/-- Settles O52: which effects request an interrupt. -/
theorem interruptSources : Obligations.InterruptSources := by
  intro i s t r es n hexec hout
  have heff := exec_effect hexec
  rw [hout] at heff
  exact heff.irq_mem_iff n

/-! ### The sticky flags -/

/-- Only an overrun sets `OERR`. -/
theorem Effect.oerr_set (h : Effect p u i u' o) (hold : u.cr.oerr = false) (hnew : u'.cr.oerr = true) :
    (∃ v : Byte, i = .receive v) ∧ o = .done .overrun [] := by
  cases h with
  | slotOverrun v | fifoOverrun v => exact ⟨⟨v, rfl⟩, rfl⟩
  | _ => simp [hold, softResetSio] at hnew

/-- Only an underrun on an internally clocked device sets `PERR`. -/
theorem Effect.perr_set (h : Effect p u i u' o) (hold : u.cr.perr = false) (hnew : u'.cr.perr = true) :
    i = .tick ∧ u.cr.ioc = false := by
  cases h with
  | underrun b hb => exact ⟨rfl, hb (by simpa [hold] using hnew)⟩
  | _ => simp [hold, softResetSio] at hnew

/-- Nothing sets `FERR` (60_exceptions.md R170). -/
theorem Effect.ferr_not_set (h : Effect p u i u' o) (hold : u.cr.ferr = false) : u'.cr.ferr = false := by
  cases h with
  | rdCr | softReset => rfl
  | _ => exact hold

/-- Only an overrun on the FIFO path sets `ROR`. -/
theorem Effect.ror_set (h : Effect p u i u' o) (hold : u.rst.ror = false) (hnew : u'.rst.ror = true) :
    (∃ v : Byte, i = .receive v) ∧ u.fcnf.cnfg = true ∧ o = .done .overrun [] := by
  cases h with
  | fifoOverrun v hcnfg => exact ⟨⟨v, rfl⟩, hcnfg, rfl⟩
  | _ => simp [hold, softResetSio] at hnew

/-- Only RD.CR and soft reset clear the flags of `CR`. -/
theorem Effect.cr_kept (h : Effect p u i u' o) (hi : i ≠ .rdCr) (hreset : ¬ CompletesSoftReset i u) :
    (u.cr.oerr = true → u'.cr.oerr = true) ∧ (u.cr.perr = true → u'.cr.perr = true) ∧
      (u.cr.ferr = true → u'.cr.ferr = true) := by
  cases h with
  | rdCr => exact absurd rfl hi
  | softReset hr => exact absurd hr hreset
  | slotOverrun | fifoOverrun => exact ⟨fun _ => rfl, id, id⟩
  | underrun b => exact ⟨id, fun hold => by simp [hold], id⟩
  | _ => exact ⟨id, id, id⟩

/-- Only RD.RST clears `ROR`. -/
theorem Effect.ror_kept (h : Effect p u i u' o) (hi : i ≠ .rdRst) (hold : u.rst.ror = true) : u'.rst.ror = true := by
  cases h with
  | rdRst => exact absurd rfl hi
  | fifoOverrun => rfl
  | _ => exact hold

/-- Settles O53: which effects set and clear the flags of `CR` and `ROR`. -/
theorem stickyFlags : Obligations.StickyFlags := fun _ _ _ hexec =>
  have heff := exec_effect hexec
  ⟨heff.oerr_set, heff.perr_set, heff.ferr_not_set, heff.ror_set, heff.cr_kept, heff.ror_kept⟩

/-! ### The status flags -/

/-- Only a tick sets `TBE`. -/
theorem Effect.tbe_set (h : Effect p u i u' o) (hold : u.mod2.tbe = false) (hnew : u'.mod2.tbe = true) :
    i = .tick := by
  cases h with
  | slotTaken | underrun | popped | poppedHit | poppedLast => rfl
  | _ => simp [hold, softResetSio] at hnew

/-- Only an accepted SEND on the single-slot path and soft reset clear `TBE`. -/
theorem Effect.tbe_cleared (h : Effect p u i u' o) (hold : u.mod2.tbe = true) (hnew : u'.mod2.tbe = false) :
    (∃ v : Byte, (i = .send v ∨ i = .wrBuf v) ∧ u'.txSlot = v) ∨ CompletesSoftReset i u := by
  cases h with
  | softReset hr => exact .inr hr
  | sentSlot v hi => exact .inl ⟨v, hi, rfl⟩
  | _ => simp [hold] at hnew

/-- Only a RECEIVE into the slot sets `RBF`. -/
theorem Effect.rbf_set (h : Effect p u i u' o) (hold : u.mod2.rbf = false) (hnew : u'.mod2.rbf = true) :
    ∃ v : Byte, i = .receive v ∧ u'.rxSlot = v := by
  cases h with
  | slotStored v => exact ⟨v, rfl, rfl⟩
  | _ => simp [hold, softResetSio] at hnew

/-- Only RD.BUF and soft reset clear `RBF`. -/
theorem Effect.rbf_cleared (h : Effect p u i u' o) (hold : u.mod2.rbf = true) (hnew : u'.mod2.rbf = false) :
    i = .rdBuf ∨ CompletesSoftReset i u := by
  cases h with
  | softReset hr => exact .inr hr
  | rdBufSlot => exact .inl rfl
  | _ => simp [hold] at hnew

/-- Nothing sets `TXRUN` (10_state.md R28). -/
theorem Effect.txrun_not_set (h : Effect p u i u' o) (hold : u.mod2.txrun = false) : u'.mod2.txrun = false := by
  cases h with
  | softReset => rfl
  | _ => exact hold

/-- Only soft reset clears `TXRUN`. -/
theorem Effect.txrun_cleared (h : Effect p u i u' o) (hold : u.mod2.txrun = true) (hnew : u'.mod2.txrun = false) :
    CompletesSoftReset i u := by
  cases h with
  | softReset hr => exact hr
  | _ => simp [hold] at hnew

/-- Settles O54: which effects set and clear the status flags. -/
theorem statusFlags : Obligations.StatusFlags := fun _ _ _ hexec =>
  have heff := exec_effect hexec
  ⟨heff.tbe_set, heff.tbe_cleared, heff.rbf_set, heff.rbf_cleared, heff.txrun_not_set, heff.txrun_cleared⟩

/-! ### Registration and queues -/

/-- Only an accepted SEND with `TXE` = 1 registers the SIO. -/
theorem Effect.registered (h : Effect p u i u' o) (hold : u.scheduled = false) (hnew : u'.scheduled = true) :
    (∃ v : Byte, i = .send v ∨ i = .wrBuf v) ∧ u.en.sioe = true ∧ u.mod1.txe = true ∧
      ∃ r : Result, o = .done r [.sched] := by
  cases h with
  | sentSlot v hi r b hb | sentQueue v hi r b hb =>
    have hreg : b = true := by simpa [hold] using hnew
    obtain ⟨hsioe, htxe⟩ := hb hreg
    exact ⟨⟨v, hi⟩, hsioe, htxe, r, by rw [if_pos hreg]⟩
  | _ => simp [hold, softResetSio] at hnew

/-- Only a tick that is done deregisters the SIO. -/
theorem Effect.deregistered (h : Effect p u i u' o) (hold : u.scheduled = true) (hnew : u'.scheduled = false) :
    i = .tick ∧ ∃ es : List Event, o = .done .finished es := by
  cases h with
  | underrun | poppedLast => exact ⟨rfl, _, rfl⟩
  | _ => simp [hold, softResetSio] at hnew

/-- Settles O55: which effects change the registration. -/
theorem registrationChanges : Obligations.RegistrationChanges := fun _ _ _ hexec =>
  have heff := exec_effect hexec
  ⟨heff.registered, heff.deregistered⟩

/-- How the receive queue changes (10_state.md R36). -/
theorem Effect.rxq_cases (h : Effect p u i u' o) :
    u'.rxq = u.rxq ∨ (∃ v : Byte, i = .receive v ∧ u'.rxq = u.rxq ++ [v]) ∨
      (∃ v : Byte, i = .rdBuf ∧ u.rxq = v :: u'.rxq ∧ o = .done (.data v) []) ∨
      (∃ v : Byte, i = .wrRfc v ∧ v.getLsbD 7 = true ∧ u.rfc.rfcs = false ∧ u'.rxq = []) := by
  cases h with
  | appended v | appendedHit v => exact .inr (.inl ⟨v, rfl, rfl⟩)
  | rdBufQueue v q _ hq => exact .inr (.inr (.inl ⟨v, rfl, hq, rfl⟩))
  | wrRfcClear v _ hold hnew => exact .inr (.inr (.inr ⟨v, rfl, hnew, hold, rfl⟩))
  | _ => exact .inl rfl

/-- How the transmit queue changes (10_state.md R36). -/
theorem Effect.txq_cases (h : Effect p u i u' o) :
    u'.txq = u.txq ∨ (∃ v : Byte, (i = .send v ∨ i = .wrBuf v) ∧ u'.txq = u.txq ++ [v]) ∨
      (∃ v : Byte, i = .tick ∧ u.txq = v :: u'.txq) ∨
      (∃ v : Byte, i = .wrTfc v ∧ v.getLsbD 7 = true ∧ u.tfc.tfcs = false ∧ u'.txq = []) := by
  cases h with
  | sentQueue v hi => exact .inr (.inl ⟨v, hi, rfl⟩)
  | popped v q _ hq | poppedHit v q _ hq | poppedLast v q _ _ hq => exact .inr (.inr (.inl ⟨v, rfl, hq⟩))
  | wrTfcClear v _ hold hnew => exact .inr (.inr (.inr ⟨v, rfl, hnew, hold, rfl⟩))
  | _ => exact .inl rfl

/-- Settles O56: how the effects change the queues. -/
theorem queueChanges : Obligations.QueueChanges := fun _ _ _ hexec =>
  have heff := exec_effect hexec
  ⟨heff.rxq_cases, heff.txq_cases⟩

/-- The operations of the data path, RD.BUF included (10_state.md R42 (iv)). -/
def DataOperation (i : Instr) : Prop := ∃ v : Byte, i = .rdBuf ∨ i = .send v ∨ i = .receive v ∨ i = .tick

/-- On the single-slot path a data operation keeps both queues. -/
theorem Effect.queues_kept (h : Effect p u i u' o) (hi : DataOperation i) (hcnfg : u.fcnf.cnfg = false) :
    u'.txq = u.txq ∧ u'.rxq = u.rxq := by
  obtain ⟨v, hi⟩ := hi
  cases h with
  | wrRfcClear | wrTfcClear => simp at hi
  | rdBufQueue _ _ hfifo | sentQueue _ _ _ _ _ hfifo | appended _ hfifo | appendedHit _ _ hfifo | popped _ _ hfifo
  | poppedHit _ _ hfifo | poppedLast _ _ _ hfifo => rw [hcnfg] at hfifo; cases hfifo
  | _ => exact ⟨rfl, rfl⟩

/-- On the FIFO path a data operation keeps both slots and the status flags. -/
theorem Effect.slots_kept (h : Effect p u i u' o) (hi : DataOperation i) (hcnfg : u.fcnf.cnfg = true) :
    u'.txSlot = u.txSlot ∧ u'.rxSlot = u.rxSlot ∧ u'.mod2 = u.mod2 := by
  obtain ⟨v, hi⟩ := hi
  cases h with
  | wrMod2 | preload => simp at hi
  | softReset hr => obtain ⟨_, w, rfl, _⟩ := hr; simp at hi
  | rdBufSlot hslot | sentSlot _ _ _ _ _ hslot | slotStored _ hslot | slotTaken hslot =>
    rw [hcnfg] at hslot; cases hslot
  | _ => exact ⟨rfl, rfl, rfl⟩

/-- Settles O57: the effects of the data operations on the path `CNFG` does not select. -/
theorem inactivePathUntouched : Obligations.InactivePathUntouched := fun _ _ _ v hi hexec =>
  have heff := exec_effect hexec
  ⟨heff.queues_kept ⟨v, hi⟩, heff.slots_kept ⟨v, hi⟩⟩

end Sys2Proof.Machine
end

section
/-! Settles O10 to O12, O48 to O50 and O58 to O60: the invariant, reset, rejections, and what an operation's reply
depends on. -/

namespace Sys2Proof.Machine

/-! ### A serial operation is a reply of the SIO -/

/-- What the arm of each serial operation commits. An operation of the decoder port leaves the SIO as it is. -/
def serialReply (p : Params) (u : Sio) : Instr → Except Rejection Reply
  | .rdEn => .ok ⟨u, .value u.en.toByte, []⟩
  | .rdBuf => .ok (readBuf u)
  | .rdCr => .ok ⟨clearErrors u, .value u.cr.toByte, []⟩
  | .rdMod0 => .ok ⟨u, .value u.mod0.toByte, []⟩
  | .rdBrcr => .ok ⟨u, .value u.brcr.toByte, []⟩
  | .rdBradd => .ok ⟨u, .value u.bradd.toByte, []⟩
  | .rdMod1 => .ok ⟨u, .value u.mod1.toByte, []⟩
  | .rdMod2 => .ok ⟨u, .value u.mod2.toByte, []⟩
  | .rdRfc => .ok ⟨u, .value u.rfc.toByte, []⟩
  | .rdTfc => .ok ⟨u, .value u.tfc.toByte, []⟩
  | .rdRst => .ok ⟨clearRor u, .value (rstByte u), []⟩
  | .rdTst => .ok ⟨u, .value (tstByte u), []⟩
  | .rdFcnf => .ok ⟨u, .value u.fcnf.toByte, []⟩
  | .wrEn v => .ok ⟨storeByte u .en (maskedStore .en u.en.toByte v), .ok, []⟩
  | .wrBuf v => writeBuf u v
  | .wrCr v => .ok ⟨storeByte u .cr (maskedStore .cr u.cr.toByte v), .ok, []⟩
  | .wrMod0 v => .ok ⟨storeByte u .mod0 (maskedStore .mod0 u.mod0.toByte v), .ok,
      if v.extractLsb' 2 2 = 0#2 then [] else [.log .uartModeUnimplemented]⟩
  | .wrBrcr v => .ok ⟨storeByte u .brcr (maskedStore .brcr u.brcr.toByte v), .ok, []⟩
  | .wrBradd v => .ok ⟨storeByte u .bradd (maskedStore .bradd u.bradd.toByte v), .ok, []⟩
  | .wrMod1 v => .ok ⟨storeByte u .mod1 (maskedStore .mod1 u.mod1.toByte v), .ok, []⟩
  | .wrMod2 v =>
    let u' := storeByte u .mod2 (maskedStore .mod2 u.mod2.toByte v)
    .ok ⟨if u.mod2.swrst = 2#2 ∧ v.extractLsb' 0 2 = 1#2 then softReset u' else u', .ok, []⟩
  | .wrRfc v =>
    let u' := storeByte u .rfc (maskedStore .rfc u.rfc.toByte v)
    .ok ⟨if u.rfc.rfcs = false ∧ v.getLsbD 7 = true then u'.withRxq [] else u', .ok, []⟩
  | .wrTfc v =>
    let u' := storeByte u .tfc (maskedStore .tfc u.tfc.toByte v)
    .ok ⟨if u.tfc.tfcs = false ∧ v.getLsbD 7 = true then u'.withTxq [] else u', .ok, []⟩
  | .wrRst _ => .error (.readOnlyWrite (regSel .rst))
  | .wrTst _ => .error (.readOnlyWrite (regSel .tst))
  | .wrFcnf v => .ok ⟨storeByte u .fcnf (maskedStore .fcnf u.fcnf.toByte v), .ok, []⟩
  | .send v => sendReply u v
  | .receive v => .ok (receiveReply p u v)
  | .tick => tickReply p u
  | .freq => freqReply p u
  | .decLookup _ | .decBuild _ | .unknown _ => .ok ⟨u, .ok, []⟩

/-- A serial operation commits its reply, which depends on the parameters and the SIO alone (00_scope.md R1). -/
theorem exec_serial {i : Instr} (hi : i.port ≠ .decoder) (s : State) :
    exec i s = .next (s.commit (serialReply s.params s.sio i)) := by
  cases i with
  | decLookup w | decBuild c | unknown w => exact absurd rfl hi
  | _ => rfl

/-- The operations of the decoder port: two lookups and the build. -/
theorem exec_decoder {i : Instr} (hi : i.port = .decoder) :
    (∃ w : Word, ∀ s : State, exec i s = .next (s.answer (s.lookup w))) ∨
      ∃ c : Word, ∀ s : State, exec i s = .next (s.build c) := by
  cases i with
  | decLookup w | unknown w => exact .inl ⟨w, fun _ => rfl⟩
  | decBuild c => exact .inr ⟨c, fun _ => rfl⟩
  | _ => cases hi

/-- Every operation answers a next state: it is a serial one, a lookup or a build. -/
theorem exec_shape (i : Instr) :
    (i.port ≠ .decoder ∧ ∀ s : State, exec i s = .next (s.commit (serialReply s.params s.sio i))) ∨
      (i.port = .decoder ∧ ∃ w : Word, ∀ s : State, exec i s = .next (s.answer (s.lookup w))) ∨
      (i.port = .decoder ∧ ∃ c : Word, ∀ s : State, exec i s = .next (s.build c)) := by
  by_cases hi : i.port = .decoder
  · exact .inr ((exec_decoder hi).imp (⟨hi, ·⟩) (⟨hi, ·⟩))
  · exact .inl ⟨hi, exec_serial hi⟩

theorem exec_isNext (i : Instr) (s : State) : ∃ t, exec i s = .next t := by
  obtain ⟨_, h⟩ | ⟨_, w, h⟩ | ⟨_, c, h⟩ := exec_shape i <;> exact ⟨_, h s⟩

theorem step_isNext (s : State) : ∃ t, step s = .next t := by
  cases hp : s.pending with
  | nil => exact ⟨_, step_of_pending_nil hp⟩
  | cons q rest =>
    cases hd : q.decode with
    | error e => exact ⟨_, step_of_decode_error hp hd⟩
    | ok i => rw [step_of_decode_ok hp hd]; exact exec_isNext i _

theorem build_accepted {c : Word} {s : State} (h : c >>> s.params.layers.nalt = 0#16) :
    s.build c = ((s.withRom (romBuild s.params.layers c)).withCfg c).withOut (.done .ok []) := if_pos h

theorem build_rejected {c : Word} {s : State} (h : ¬ c >>> s.params.layers.nalt = 0#16) :
    s.build c = s.withOut (.rejected (.configError (.badLayerSelect c))) := if_neg h

/-! ### The invariant -/

/-- The usable capacity of the receive queue is within its capacity, by the bound on the threshold table
(10_state.md R40). -/
theorem usableCapacity_le {p : Params} (hp : p.wf = true) (u : Sio) : usableCapacity p u ≤ p.rxqCap := by
  have hall : ∀ t ∈ p.rxThr.toList, t ≤ p.rxqCap := by
    simp only [Params.wf, Bool.and_eq_true, List.all_eq_true, decide_eq_true_eq] at hp
    obtain ⟨⟨⟨_, hthr⟩, _⟩, _⟩ := hp
    exact hthr
  unfold usableCapacity
  split
  · exact hall _ (by rw [rxThreshold]; simp [Vector.get])
  · exact Nat.le_refl _

/-- The receive queue stays within its capacity (10_state.md R36). -/
theorem Effect.rxq_length_le {p : Params} {u u' : Sio} {i : Instr} {o : Output} (h : Effect p u i u' o)
    (hp : p.wf = true) (hold : u.rxq.length ≤ p.rxqCap) : u'.rxq.length ≤ p.rxqCap := by
  have hcap := usableCapacity_le hp u
  cases h with
  | appended v _ hroom | appendedHit v _ _ hroom =>
    simp only [Sio.withRxq_rxq, Sio.withMod0_rxq, List.length_append, List.length_singleton]; omega
  | rdBufQueue v q _ hq => rw [hq, List.length_cons] at hold; exact Nat.le_of_succ_le hold
  | wrRfcClear => exact Nat.zero_le _
  | _ => exact hold

/-- The table and the configuration stay in agreement: only an accepted build replaces them, both at once. -/
theorem exec_rom {i : Instr} {s t : State} (h : exec i s = .next t) :
    (t.rom = s.rom ∧ t.cfg = s.cfg) ∨
      (t.rom = romBuild s.params.layers t.cfg ∧ t.cfg >>> s.params.layers.nalt = 0#16) := by
  obtain ⟨_, hi⟩ | ⟨_, w, hi⟩ | ⟨_, c, hi⟩ := exec_shape i <;> cases next_inj ((hi s).symm.trans h)
  · exact .inl ⟨commit_rom s _, commit_cfg s _⟩
  · exact .inl ⟨rfl, rfl⟩
  · obtain ⟨hc, hb⟩ | ⟨_, hb⟩ := build_cases s c <;> rw [hb]
    · exact .inr ⟨rfl, hc⟩
    · exact .inl ⟨rfl, rfl⟩

/-- Every operation keeps the invariant. -/
theorem exec_inv {i : Instr} {s t : State} (hinv : Inv s) (h : exec i s = .next t) : Inv t := by
  obtain ⟨hparams, hrom, hcfg, hrxq, hferr, htxrun⟩ := hinv
  obtain ⟨hp, _⟩ := exec_keeps i h
  have heff := exec_effect h
  have htable : t.rom = romBuild s.params.layers t.cfg ∧ t.cfg >>> s.params.layers.nalt = 0#16 := by
    obtain ⟨hr, hc⟩ | hbuilt := exec_rom h
    · rw [hr, hc]; exact ⟨hrom, hcfg⟩
    · exact hbuilt
  obtain ⟨hr, hc⟩ := htable
  rw [← hp] at hparams hrxq hr hc heff
  exact ⟨hparams, hr, hc, heff.rxq_length_le hparams hrxq, heff.ferr_not_set hferr, heff.txrun_not_set htxrun⟩

/-- The invariant speaks of neither the output port nor the requests. -/
theorem Inv.withOut_withPending {s : State} (h : Inv s) (o : Output) (q : List Request) :
    Inv ((s.withPending q).withOut o) := by
  obtain ⟨hparams, hrom, hcfg, hrxq, hferr, htxrun⟩ := h
  exact ⟨hparams, hrom, hcfg, hrxq, hferr, htxrun⟩

/-- Settles O10: an idle step and a rejection change only the model's own fields, and every operation keeps it. -/
theorem stepKeepsInvariant : Obligations.StepKeepsInvariant := by
  intro s t hinv hstep
  obtain ⟨_, rfl⟩ | ⟨q, rest, i, _, _, hexec⟩ | ⟨q, rest, e, _, _, rfl⟩ := step_cases hstep
  · exact hinv.withOut_withPending .idle s.pending
  · exact exec_inv (hinv.withOut_withPending s.out rest) hexec
  · exact hinv.withOut_withPending _ rest

/-! ### Reset -/

/-- The configuration at reset selects layers that exist (00_scope.md R9). -/
theorem reset_cfg_selectsExisting :
    State.reset.params.cfg0 >>> State.reset.params.layers.nalt = 0#16 := by
  have hwf := Config.params_wf
  simp only [Params.wf, Bool.and_eq_true, selectsExisting, beq_iff_eq] at hwf
  exact hwf.2

/-- Settles O11: the parameters are within their bounds, the table is the one of `CFG0`, and the rest is 0. -/
theorem resetMeetsInvariant : Obligations.ResetMeetsInvariant :=
  ⟨Config.params_wf, rfl, reset_cfg_selectsExisting, Nat.zero_le _, rfl, rfl⟩

/-- Settles O12: a build of `CFG0` writes what reset left, and each register reads its reset value. -/
theorem resetValues : Obligations.ResetValues := by
  refine ⟨?_, rfl, fun r => ?_, rfl, rfl, rfl, rfl⟩
  · exact exec_decBuild_accepted ((ushiftRight_eq_zero_iff _ _).mp reset_cfg_selectsExisting)
  · cases r <;> rfl

/-! ### Rejections -/

/-- Settles O48: of a serial reply and of a build only the rejecting case shows a rejection, and it changes nothing
else. -/
theorem rejectionChangesNothing : Obligations.RejectionChangesNothing := by
  intro i s t e hexec hout
  obtain ⟨_, hi⟩ | ⟨_, w, hi⟩ | ⟨_, c, hi⟩ := exec_shape i
  · obtain ⟨r, _, rfl⟩ | ⟨e', _, rfl⟩ := commit_cases s t (next_inj ((hi s).symm.trans hexec)) <;> cases hout
    rfl
  · cases next_inj ((hi s).symm.trans hexec); cases hout
  · cases next_inj ((hi s).symm.trans hexec)
    obtain ⟨_, hb⟩ | ⟨_, hb⟩ := build_cases s c <;> rw [hb] at hout ⊢ <;> cases hout
    rfl

/-- A rejected request leaves the state it found, without the request (60_exceptions.md R165). -/
theorem step_rejected {s t : State} {q : Request} {rest : List Request} {e : Rejection} (hp : s.pending = q :: rest)
    (hstep : step s = .next t) (hout : t.out = .rejected e) : t = (s.withPending rest).withOut (.rejected e) := by
  cases hd : q.decode with
  | error e' =>
    cases next_inj ((step_of_decode_error hp hd).symm.trans hstep)
    cases hout; rfl
  | ok i => exact rejectionChangesNothing i _ t e ((step_of_decode_ok hp hd).symm.trans hstep) hout

/-! ### What an operation does not read -/

/-- No operation reads the output port or the requests: the next state is the same but for the requests. -/
theorem exec_withOut_withPending {i : Instr} {s t : State} (h : exec i s = .next t) (o : Output) (q : List Request) :
    exec i ((s.withOut o).withPending q) = .next (t.withPending q) := by
  obtain ⟨_, hi⟩ | ⟨_, w, hi⟩ | ⟨_, c, hi⟩ := exec_shape i <;> cases next_inj ((hi s).symm.trans h) <;> rw [hi]
  · change Host.Outcome.next (State.commit _ (serialReply s.params s.sio i)) = _
    cases serialReply s.params s.sio i <;> rfl
  · rfl
  · by_cases hc : c >>> s.params.layers.nalt = 0#16
    · rw [build_accepted hc, build_accepted (s := (s.withOut o).withPending q) hc]; rfl
    · rw [build_rejected hc, build_rejected (s := (s.withOut o).withPending q) hc]; rfl

/-- Settles O60: the frame of every operation, and its independence of the model's own fields. -/
theorem modelFieldsUnread : Obligations.ModelFieldsUnread := fun i _ _ o q h =>
  ⟨(exec_keeps i h).2, (exec_keeps i h).1, exec_withOut_withPending h o q⟩

/-- Settles O49: the state a rejection leaves differs from the one it found in the output port only, and a step does
not read that. -/
theorem rejectionIsForgotten : Obligations.RejectionIsForgotten := by
  intro s t q q' rest e hp hstep hout
  cases step_rejected hp hstep hout
  cases hd : q'.decode with
  | error e' => rw [step_of_decode_error rfl hd, step_of_decode_error rfl hd]; rfl
  | ok i =>
    rw [step_of_decode_ok rfl hd, step_of_decode_ok rfl hd]
    obtain ⟨t, ht⟩ := exec_isNext i ((s.withPending (q' :: rest)).withPending rest)
    have hrest : t.pending = rest := (exec_keeps i ht).2
    have hself : t.withPending rest = t := by rw [← hrest]; rfl
    rw [ht, ← hself]
    exact exec_withOut_withPending ht (.rejected e) rest

/-- Settles O50: by what the output port of the next state shows. -/
theorem strictStepFaultsOnRejection : Obligations.StrictStepFaultsOnRejection := by
  intro s
  obtain ⟨t, ht⟩ := step_isNext s
  refine ⟨t, ht, fun e hout => ?_, fun hnot => ?_⟩
  · simp only [strictStep, ht, State.rejection, hout]
  · cases ho : t.out with
    | rejected e => exact absurd ho (hnot e)
    | idle | done => simp only [strictStep, ht, State.rejection, ho]

/-- Settles O58: a serial reply depends on parameters and SIO, a lookup and a build on parameters and ROM. -/
theorem decoderAndSerialIndependent : Obligations.DecoderAndSerialIndependent := by
  intro i s s' t t' h h' hparams
  obtain ⟨hport, hi⟩ | ⟨hport, w, hi⟩ | ⟨hport, c, hi⟩ := exec_shape i <;>
    cases next_inj ((hi s).symm.trans h) <;> cases next_inj ((hi s').symm.trans h')
  · refine ⟨fun _ => ⟨commit_rom s _, commit_cfg s _, fun hsio => ?_⟩, fun hdec => absurd hdec hport⟩
    rw [hparams, hsio]
    cases serialReply s'.params s'.sio i with
    | ok r => exact ⟨rfl, rfl⟩
    | error e => exact ⟨hsio, rfl⟩
  · refine ⟨fun hser => absurd hport hser, fun _ => ⟨rfl, fun hrom hcfg => ⟨hrom, hcfg, ?_⟩⟩⟩
    simp only [State.answer, State.withOut_out, State.lookup, hparams, hrom]
  · refine ⟨fun hser => absurd hport hser, fun _ => ⟨build_sio s c, fun hrom hcfg => ?_⟩⟩
    unfold State.build
    rw [hparams]
    split
    · exact ⟨rfl, rfl, rfl⟩
    · exact ⟨hrom, hcfg, rfl⟩

/-! ### The serial mode -/

/-- The SIO with serial mode `m`. -/
def smSio (m : BitVec 2) (u : Sio) : Sio := u.withMod0 { u.mod0 with sm := m }

/-- A reply whose SIO has serial mode `m`. -/
def smReply (m : BitVec 2) (r : Reply) : Reply := { r with sio := smSio m r.sio }

/-- A reply on the SIO with another serial mode, committed, is the reply on the SIO, committed, with that mode. -/
theorem commit_withSm (s : State) (m : BitVec 2) (x : Except Rejection Reply) :
    (withSm s m).commit (x.map (smReply m)) = withSm (s.commit x) m := by
  cases x <;> rfl

theorem acceptTx_smSio (m : BitVec 2) (u : Sio) (v : Byte) : acceptTx (smSio m u) v = smSio m (acceptTx u v) := by
  obtain ⟨hc, h⟩ | ⟨hc, h⟩ := acceptTx_cases u v <;> rw [h, acceptTx]
  · exact if_neg (by simp [smSio, hc])
  · exact if_pos hc

theorem sendReply_smSio (m : BitVec 2) (u : Sio) (v : Byte) :
    sendReply (smSio m u) v = (sendReply u v).map (smReply m) := by
  have hen : (smSio m u).en = u.en := rfl
  have hregisters : registers (smSio m u) = registers u := rfl
  have hvalid : baudValid (smSio m u) = baudValid u := rfl
  have hrejection : baudRejection (smSio m u) = baudRejection u := rfl
  simp only [sendReply, hen, hregisters, hvalid, hrejection, acceptTx_smSio]
  split_ifs <;> rfl

theorem writeBuf_smSio (m : BitVec 2) (u : Sio) (v : Byte) :
    writeBuf (smSio m u) v = (writeBuf u v).map (smReply m) := by
  cases hen : u.en.sioe with
  | false => rw [writeBuf_disabled hen, writeBuf_disabled (u := smSio m u) hen]; rfl
  | true =>
    rw [writeBuf_enabled hen, writeBuf_enabled (u := smSio m u) hen, sendReply_smSio]
    cases sendReply u v <;> rfl

theorem autoDisableRx_smSio (m : BitVec 2) (u : Sio) : autoDisableRx (smSio m u) = smSio m (autoDisableRx u) := by
  rw [autoDisableRx_eq, autoDisableRx_eq]; rfl

theorem receiveReply_smSio (p : Params) (m : BitVec 2) (u : Sio) (v : Byte) :
    receiveReply p (smSio m u) v = smReply m (receiveReply p u v) := by
  have hpermitted : receivePermitted (smSio m u) = receivePermitted u := rfl
  have hfcnf : (smSio m u).fcnf = u.fcnf := rfl
  have hmod2 : (smSio m u).mod2 = u.mod2 := rfl
  have hrxq : (smSio m u).rxq = u.rxq := rfl
  have hcapacity : usableCapacity p (smSio m u) = usableCapacity p u := rfl
  have hhit (n : Nat) : rxHit p (smSio m u) n = rxHit p u n := rfl
  have happend (q : List Byte) : (smSio m u).withRxq q = smSio m (u.withRxq q) := rfl
  simp only [receiveReply, receiveFifo, receiveSlot, hpermitted, hfcnf, hmod2, hrxq, hcapacity, hhit, happend,
    autoDisableRx_smSio]
  split_ifs <;> rfl

/-- The end of a tick does not read the SIO. -/
theorem tickFinish_smSio (m : BitVec 2) (k : Taken) :
    tickFinish { k with sio := smSio m k.sio } = smReply m (tickFinish k) := by
  unfold tickFinish
  split_ifs <;> rfl

theorem takeTx_smSio (p : Params) (m : BitVec 2) (u : Sio) :
    takeTx p (smSio m u) = { takeTx p u with sio := smSio m (takeTx p u).sio } := by
  have htxq : (smSio m u).txq = u.txq := rfl
  cases hc : u.fcnf.cnfg with
  | false =>
    have hmod2 : (smSio m u).mod2 = u.mod2 := rfl
    simp only [takeTx_slot hc, takeTx_slot (u := smSio m u) hc, takeSlot, flagUnderrun_eq, hmod2]
    split_ifs <;> rfl
  | true =>
    rw [takeTx_fifo hc, takeTx_fifo (u := smSio m u) hc, takeFifo, takeFifo, htxq]
    cases u.txq with
    | nil => simp only [fifoUnderrun_eq]; rfl
    | cons v q =>
      have hfcnf : (smSio m u).fcnf = u.fcnf := rfl
      have hhit : txHit p (smSio m u) q.length = txHit p u q.length := rfl
      simp only [popTxq, hfcnf, hhit]
      split_ifs <;> rfl

theorem tickReply_smSio (p : Params) (m : BitVec 2) (u : Sio) :
    tickReply p (smSio m u) = (tickReply p u).map (smReply m) := by
  have hscheduled : (smSio m u).scheduled = u.scheduled := rfl
  rw [tickReply, tickReply, takeTx_smSio, tickFinish_smSio, hscheduled]
  split_ifs <;> rfl

theorem readBuf_smSio (m : BitVec 2) (u : Sio) : readBuf (smSio m u) = smReply m (readBuf u) := by
  have hfcnf : (smSio m u).fcnf = u.fcnf := rfl
  have hmod2 : (smSio m u).mod2 = u.mod2 := rfl
  have hrxq : (smSio m u).rxq = u.rxq := rfl
  rw [readBuf, readBuf, hfcnf, hmod2, hrxq]
  cases u.rxq <;> split_ifs <;> rfl

theorem freqReply_smSio (p : Params) (m : BitVec 2) (u : Sio) :
    freqReply p (smSio m u) = (freqReply p u).map (smReply m) := by
  have hvalid : baudValid (smSio m u) = baudValid u := rfl
  rw [freqReply, freqReply, hvalid]
  split_ifs <;> rfl

/-- Only RD.MOD0 and WR.MOD0 read the serial mode or change it (41_register_access.md R109). -/
theorem serialReply_smSio (p : Params) (m : BitVec 2) (u : Sio) {i : Instr} (hrd : i ≠ .rdMod0)
    (hwr : ∀ v : Byte, i ≠ .wrMod0 v) : serialReply p (smSio m u) i = (serialReply p u i).map (smReply m) := by
  cases i with
  | rdMod0 => exact absurd rfl hrd
  | wrMod0 v => exact absurd rfl (hwr v)
  | rdBuf => exact congrArg Except.ok (readBuf_smSio m u)
  | wrBuf v => exact writeBuf_smSio m u v
  | send v => exact sendReply_smSio m u v
  | receive v => exact congrArg Except.ok (receiveReply_smSio p m u v)
  | tick => exact tickReply_smSio p m u
  | freq => exact freqReply_smSio p m u
  | wrMod2 v | wrRfc v | wrTfc v =>
    refine congrArg (fun a : Sio => Except.ok (Reply.mk a .ok [])) (.trans ?_ (apply_ite (smSio m) _ _ _).symm)
    rfl
  | _ => rfl

theorem build_withSm (s : State) (m : BitVec 2) (c : Word) : (withSm s m).build c = withSm (s.build c) m := by
  by_cases hc : c >>> s.params.layers.nalt = 0#16
  · rw [build_accepted hc, build_accepted (s := withSm s m) hc]; rfl
  · rw [build_rejected hc, build_rejected (s := withSm s m) hc]; rfl

/-- Settles O59: a serial reply carries the mode through, and the decoder port does not touch the SIO. -/
theorem serialModeDecidesNothing : Obligations.SerialModeDecidesNothing := by
  intro i s t m hrd hwr hexec
  obtain ⟨_, hi⟩ | ⟨_, w, hi⟩ | ⟨_, c, hi⟩ := exec_shape i <;> cases next_inj ((hi s).symm.trans hexec) <;> rw [hi]
  · rw [← commit_withSm, ← serialReply_smSio s.params m s.sio hrd hwr]; rfl
  · rfl
  · rw [build_withSm]

end Sys2Proof.Machine
end
